-- ==== Sys2Proof/Word.lean ====
section
/-! DEFINITION. The word types of the block (spec/00_scope.md R8: `uN` is an unsigned integer of `N` bits). -/

namespace Sys2Proof

/-- A `u8`: a payload byte, a host byte, an operation code. -/
abbrev Byte := BitVec 8

/-- A `u32`: a bitrate, a counter, a time in milliseconds, an id word. -/
abbrev Word32 := BitVec 32

/-- An ASCII byte string (R8). -/
abbrev Bytes := List Byte

/-- A bus index, a `u8` (R20, R73). -/
abbrev BusIx := BitVec 8

end Sys2Proof
end

