-- ==== Sys2Proof/Syntax.lean ====
section
/-! DEFINITION. The syntax: frames, the commands a host line can spell, and `Instr`, one constructor for
every row of spec/opcode_table.json (the operations that take the place of instructions, R2). -/

namespace Sys2Proof

/-- The eight payload bytes `data[0] .. data[7]` of a frame; all eight are always stored (R10, R11). -/
structure Payload where
  b0 : Byte
  b1 : Byte
  b2 : Byte
  b3 : Byte
  b4 : Byte
  b5 : Byte
  b6 : Byte
  b7 : Byte
  deriving DecidableEq, Repr, Inhabited

/-- A `CanFrame` (R10, R70): the 29-bit identifier with its flags stripped (R71), the extended and
remote-request flags, the data length code 0 to 8, the payload. The type has room for a frame with `ext` false and an
identifier above 0x7FF, which is neither of R70's two kinds (assumption 27). -/
structure CanFrame where
  id : BitVec 29
  ext : Bool
  rtr : Bool
  dlc : Fin 9
  data : Payload
  deriving DecidableEq, Repr, Inhabited

/-- The operand of `FSM_STEP` (R177): a byte, for the engine instance whose number `engine` is (R180). -/
structure EngineByte where
  engine : Nat
  byte : Byte
  deriving DecidableEq, Repr, Inhabited

/-- The digit of `ATSP` (R77 (b)). -/
inductive Protocol where
  | p6 | p7 | p8 | p9
  deriving DecidableEq, Repr, Inhabited

/-- What a non-empty host line can be (R75): the eighteen AT commands with their arguments (R76, R77), the
four PID shapes (R78), an unknown or malformed AT line and an invalid line (R85). The lines of the last three
are in upper case, as the dispatcher sees them (R191). -/
inductive LineCmd where
  | atdesc
  | atsp (d : Protocol)
  | atat (on : Bool)
  | atst (hh : Byte)
  | atdp (numeric : Bool)
  | atpc
  | atrv
  | at1
  | atsh (h : BitVec 29)
  | atma (on : Bool)
  | ate (on : Bool)
  | atm (on : Bool)
  | atl (on : Bool)
  | ats (on : Bool)
  | ath (on : Bool)
  | atd (on : Bool)
  | atz
  | ati
  | pid4 (mode pid : Byte)
  | pid5 (mode pid : Byte) (expected : BitVec 4)
  | pid6 (mode : Byte) (pid : BitVec 16)
  | pid7 (mode : Byte) (pid : BitVec 16) (expected : BitVec 4)
  | unknownAt (u : Bytes)
  | malformedAt (u : Bytes)
  | invalidLine (u : Bytes)
  deriving DecidableEq, Repr, Inhabited

/-- One constructor per row of spec/opcode_table.json, in the table's order. -/
inductive Instr where
  -- Transport API commands (R73)
  | enable (bus : BusIx) (rate : Word32)
  | disable (bus : BusIx)
  | setBitrate (bus : BusIx) (rate : Word32)
  | setListenOnly (bus : BusIx) (flag : Bool)
  | isEnabled (bus : BusIx)
  | getBitrate (bus : BusIx)
  | isListenOnly (bus : BusIx)
  | send (bus : BusIx) (frame : CanFrame)
  | receive (bus : BusIx)
  | getRxBufferedFrames (bus : BusIx)
  | getTxBufferedFrames (bus : BusIx)
  | getRxOverflowCount (bus : BusIx)
  | getTxOverflowCount (bus : BusIx)
  | getNumBusses
  | setNumBusses (n : Byte)
  | getStatistics (bus : BusIx)
  | setBridge (bus1 bus2 : BusIx)
  | handleBridge (bus : BusIx) (frame : CanFrame)
  -- AT commands (R76)
  | atdesc
  | atsp (d : Protocol)
  | atat (on : Bool)
  | atst (hh : Byte)
  | atdp (numeric : Bool)
  | atpc
  | atrv
  | at1
  | atsh (h : BitVec 29)
  | atma (on : Bool)
  | ate (on : Bool)
  | atm (on : Bool)
  | atl (on : Bool)
  | ats (on : Bool)
  | ath (on : Bool)
  | atd (on : Bool)
  | atz
  | ati
  -- other host lines (R75, R78, R85, R86)
  | repeatLine
  | pid4 (mode pid : Byte)
  | pid5 (mode pid : Byte) (expected : BitVec 4)
  | pid6 (mode : Byte) (pid : BitVec 16)
  | pid7 (mode : Byte) (pid : BitVec 16) (expected : BitVec 4)
  | unknownAt (u : Bytes)
  | malformedAt (u : Bytes)
  | invalidLine (u : Bytes)
  -- internal events (R87)
  | rxEvent (bus : BusIx) (frame : CanFrame)
  | txStep
  | rxTaskStep (bus : BusIx)
  | persist
  | loadSettings
  | fsmStep (byte : EngineByte)
  | hostByte (c : Byte)
  | dispatchLine (line : Bytes)
  | handleCanFrame (frame : CanFrame)
  | processCanFrame (frame : CanFrame)
  | formatFrameOutput (frame : CanFrame)
  | sendFlowControl (frame : CanFrame)
  | updateTimeout (sample : Word32)
  | checkForTimeout
  | closeOut
  | reset
  deriving DecidableEq, Repr, Inhabited

/-- The instruction a line command is. -/
def LineCmd.toInstr : LineCmd → Instr
  | .atdesc => .atdesc
  | .atsp d => .atsp d
  | .atat on => .atat on
  | .atst hh => .atst hh
  | .atdp numeric => .atdp numeric
  | .atpc => .atpc
  | .atrv => .atrv
  | .at1 => .at1
  | .atsh h => .atsh h
  | .atma on => .atma on
  | .ate on => .ate on
  | .atm on => .atm on
  | .atl on => .atl on
  | .ats on => .ats on
  | .ath on => .ath on
  | .atd on => .atd on
  | .atz => .atz
  | .ati => .ati
  | .pid4 mode pid => .pid4 mode pid
  | .pid5 mode pid expected => .pid5 mode pid expected
  | .pid6 mode pid => .pid6 mode pid
  | .pid7 mode pid expected => .pid7 mode pid expected
  | .unknownAt u => .unknownAt u
  | .malformedAt u => .malformedAt u
  | .invalidLine u => .invalidLine u

end Sys2Proof
end

