-- ==== Sys2Proof/Config.lean ====
section
/-! DEFINITION. What one instance of the block fixes (spec/00_scope.md R5, R6), what its environment supplies at
each step (the draws of R8 and R32, the schedule of R7), and the model's free values. The parameters are data that
State carries, so every statement over all states is a statement over all parameters. -/

namespace Sys2Proof

/-- An `ElmSession` (R21). -/
structure ElmSession where
  headerId : BitVec 29
  extended : Bool
  echo : Bool
  linefeed : Bool
  whitespace : Bool
  headers : Bool
  monitor : Bool
  memory : Bool
  dlcDisplay : Bool
  adaptive : Bool
  timeoutMs : Word32
  deriving DecidableEq, Repr, Inhabited

/-- A `BusConfig` (R13). -/
structure BusConfig where
  enabled : Bool
  listenOnly : Bool
  bitrate : Word32
  deriving DecidableEq, Repr, Inhabited

/-- A host text in its two linefeed forms (R84: `PROMPT(L)`, `ERR_REPLY(L)`). -/
structure LinefeedText where
  on : Bytes
  off : Bytes
  deriving DecidableEq, Repr, Inhabited

/-- A host text that may depend on the addressing (R199: `STR_ATDP(sess)`, `STR_ATDPN(sess)`). -/
structure AddressingText where
  extended : Bytes
  standard : Bytes
  deriving DecidableEq, Repr, Inhabited

/-- `UNKNOWN_AT_REPLY` (R213, C14). -/
inductive UnknownAtReply where
  | okTerminator
  | question
  | none
  deriving DecidableEq, Repr, Inhabited

/-- One entry of a handler's `tick`: with handler state `user` and input `byte`, the next identity, the side
output and the handler state after it. -/
structure FsmTickRow where
  user : Nat
  byte : Byte
  next : Nat
  out : Nat
  userAfter : Nat
  deriving DecidableEq, Repr, Inhabited

/-- One entry of a handler's `enter`. -/
structure FsmEnterRow where
  user : Nat
  next : Nat
  userAfter : Nat
  deriving DecidableEq, Repr, Inhabited

/-- One entry of a handler's `exit`. -/
structure FsmExitRow where
  user : Nat
  userAfter : Nat
  deriving DecidableEq, Repr, Inhabited

/-- A state handler (R176) as finite tables over the opaque handler state: where no row matches, `tick` answers
the default identity and side output, `enter` the default identity, and the handler state is unchanged. -/
structure FsmHandler where
  tickRows : List FsmTickRow
  tickNext : Nat
  tickOut : Nat
  enterRows : List FsmEnterRow
  enterNext : Nat
  exitRows : List FsmExitRow
  deriving DecidableEq, Repr, Inhabited

/-- `FSM_REGISTRY` (R175): a partial map from identities to state handlers. -/
abbrev FsmRegistry := List (Nat × FsmHandler)

/-- What one State Machine Engine instance is constructed from (R175): its registry, its initial identity, and the
handlers' opaque state at construction (R25). -/
structure FsmParams where
  registry : FsmRegistry
  initial : Nat
  userInit : Nat
  deriving DecidableEq, Repr, Inhabited

/-- The implementation parameters of R5. The source gives a value for none of them. -/
structure Params where
  maxBusses : Nat
  maxBitrate : Word32
  rxqDepth : Nat
  txqDepth : Nat
  minTimeoutMs : Word32
  maxTimeoutMs : Word32
  avgInit : Word32
  elmBus : BusIx
  elmDefaults : ElmSession
  defaultNumBusses : Byte
  defaultBitrate : Word32
  strAti : Bytes
  strAt1 : Bytes
  strAtdesc : Bytes
  strAtrv : Bytes
  strAtdp : AddressingText
  strAtdpn : AddressingText
  prompt : LinefeedText
  errReply : LinefeedText
  unknownAtReply : UnknownAtReply
  mfPrefixWhenHeaders : Bool
  lineMax : Nat
  /-- `FSM_REGISTRY`, `FSM_INITIAL` of each engine instance: several may exist, one for each decoder (R180). -/
  engines : List FsmParams
  /-- `SEND_WAIT`, `RECV_WAIT`, `LOCK_WAIT`, `TX_IDLE_INTERVAL`: no rule reads them (R139, R293). -/
  sendWait : Nat
  recvWait : Nat
  lockWait : Nat
  txIdleInterval : Nat
  deriving DecidableEq, Repr, Inhabited

/-- The fixed grace period, 250 ms (R5, R331). -/
def graceMs : Nat := 250

/-- Membership in the registry. -/
def FsmRegistry.has (reg : FsmRegistry) (id : Nat) : Bool := reg.any fun p => p.1 == id

/-- The constraints R5 and D4 put on the parameters. -/
def Params.ok (p : Params) : Bool :=
  1 ≤ p.rxqDepth && 1 ≤ p.txqDepth && p.minTimeoutMs.toNat ≤ p.maxTimeoutMs.toNat &&
    p.defaultNumBusses.toNat < p.maxBusses && 12 ≤ p.lineMax &&
    p.engines.all fun e => FsmRegistry.has e.registry e.initial

/-- What the environment draws for one step (R8, R32): every field is free. -/
structure Draws where
  /-- Milliseconds since the step before (R293). -/
  elapsed : Word32
  /-- `lock_ok` (R59). -/
  lockOk : Bool
  /-- `persist_ok` (R110). -/
  persistOk : Bool
  /-- Whether an operation whose queue does not allow it gives up or holds (R139). -/
  giveUp : Bool
  /-- What echo writes for a host byte (R217). -/
  echo : Bytes
  /-- The controller's statistics record (R19, R138). -/
  stats : Bytes
  /-- The bus the arbiter serves, where its choice is used (R133 corner case 2, D10). -/
  txChoice : Option BusIx
  /-- The bytes of a wire frame beyond its length (R11). -/
  pad : Payload
  /-- `subsys_ok.transport`, `subsys_ok.elm` (R29, R310). -/
  transportOk : Bool
  elmOk : Bool
  /-- The handlers' state after an unknown target (R178). -/
  fsmUser : Nat
  /-- The printed identifier of a standard frame whose id does not fit three digits (R244). -/
  wideId : Bytes
  deriving DecidableEq, Repr, Inhabited

/-- What an agent of R7 does when it is scheduled. -/
inductive Action where
  /-- `CLIENT`: a command on port `API`. -/
  | api (command : Bytes)
  /-- `IRQ[b]`: controller `b` delivers a frame on `CTRL_RX[b]`, in the id-word form of R71. -/
  | wire (bus : BusIx) (idWord : Word32) (dlc : Byte) (data : Payload)
  /-- `ELMTASK`: a byte from `HOST_IN`. -/
  | host (c : Byte)
  /-- `ELMTASK`: the timeout poll. -/
  | poll
  /-- `TXARB`. -/
  | arbiter
  /-- `RXTASK[b]`. -/
  | rxTask (bus : BusIx)
  /-- `FSMUSER`: a byte for engine instance `k`, whose decoder it is. -/
  | fsm (k : Nat) (c : Byte)
  /-- A held operation looks at its queue again (R139): the `k`-th of the held list. -/
  | resume (k : Nat)
  /-- The environment resets the block (R310). -/
  | reset
  deriving DecidableEq, Repr, Inhabited

/-- One entry of the schedule: who acts, and what the environment answers. -/
structure Stimulus where
  action : Action
  draws : Draws
  deriving DecidableEq, Repr, Inhabited

/-- FREE VALUE (R7, R8, U20): the `n`-th choice of the scheduler and of the environment when State lists none.
It has no body: nothing constrains it. -/
opaque Config.freeStimulus : Nat → Stimulus

/-- FREE VALUES (R5, R83): the information texts of the test instance T1, which leaves them symbolic. -/
opaque Config.strAti : Bytes
opaque Config.strAt1 : Bytes
opaque Config.strAtdesc : Bytes
opaque Config.strAtrv : Bytes
opaque Config.strAtdp : AddressingText
opaque Config.strAtdpn : AddressingText

/-- FREE VALUES (R5): the wait bounds, which the test instance does not name and no rule reads. -/
opaque Config.sendWait : Nat
opaque Config.recvWait : Nat
opaque Config.lockWait : Nat
opaque Config.txIdleInterval : Nat

/-- The handler `idle` of spec/95_test_vectors.md B5 (identity 0; side outputs `o0`, `o1` as 0, 1). -/
def Config.fsmIdle : FsmHandler :=
  { tickRows := [{ user := 0, byte := 0x41, next := 1, out := 1, userAfter := 0 }]
    tickNext := 0, tickOut := 0, enterRows := [], enterNext := 0, exitRows := [] }

/-- The handler `dispatch` of B5 (identity 1; side output `o2` as 2). -/
def Config.fsmDispatch : FsmHandler :=
  { tickRows := [], tickNext := 1, tickOut := 2, enterRows := [], enterNext := 0, exitRows := [] }

/-- The session defaults of the test instance T1 (spec/95_test_vectors.md section 0). DESIGN CHOICE. -/
def Config.t1Session : ElmSession :=
  { headerId := 0x7DF, extended := false, echo := false, linefeed := false, whitespace := true
    headers := false, monitor := false, memory := false, dlcDisplay := false, adaptive := true
    timeoutMs := 200 }

/-- The test instance T1 of spec/95_test_vectors.md section 0, the parameters of `State.reset`. DESIGN CHOICE:
the source gives no parameter a value. -/
def Config.t1 : Params :=
  { maxBusses := 4, maxBitrate := 1000000, rxqDepth := 2, txqDepth := 2
    minTimeoutMs := 50, maxTimeoutMs := 1000, avgInit := 100, elmBus := 0
    elmDefaults := Config.t1Session, defaultNumBusses := 3, defaultBitrate := 500000
    strAti := Config.strAti, strAt1 := Config.strAt1, strAtdesc := Config.strAtdesc, strAtrv := Config.strAtrv
    strAtdp := Config.strAtdp, strAtdpn := Config.strAtdpn
    prompt := { on := [0x0D, 0x0A, 0x3E], off := [0x0D, 0x3E] }
    errReply := { on := [0x3F, 0x0D, 0x0A, 0x3E], off := [0x3F, 0x0D, 0x3E] }
    unknownAtReply := .okTerminator, mfPrefixWhenHeaders := true, lineMax := 32
    engines := [{ registry := [(0, Config.fsmIdle), (1, Config.fsmDispatch)], initial := 0, userInit := 0 }]
    sendWait := Config.sendWait, recvWait := Config.recvWait, lockWait := Config.lockWait
    txIdleInterval := Config.txIdleInterval }

/-- Draws for a step whose draws nobody names: every lock and write succeeds, no time passes, nothing is echoed. -/
def Config.plainDraws : Draws :=
  { elapsed := 0, lockOk := true, persistOk := true, giveUp := true, echo := [], stats := [], txChoice := none
    pad := ⟨0, 0, 0, 0, 0, 0, 0, 0⟩, transportOk := true, elmOk := true, fsmUser := 0, wideId := [] }

end Sys2Proof
end

