-- ==== Sys2Proof/Decode.lean ====
section
/-! DEFINITION. Formats and encodings (spec/30_encoding.md): hexadecimal text, the id word and the frame, the
persisted record's packed layout, the Transport API command, the host line. The decoder is total on any bytes
and rejects by name; the encoder stands after it, written from the same tables. -/

namespace Sys2Proof

/-! ## Text -/

/-- `is_hex(c)` (R8). -/
def isHex (c : Byte) : Bool :=
  (0x30 ≤ c.toNat && c.toNat ≤ 0x39) || (0x41 ≤ c.toNat && c.toNat ≤ 0x46) ||
    (0x61 ≤ c.toNat && c.toNat ≤ 0x66)

/-- The value of one hexadecimal digit. -/
def hexDigitVal (c : Byte) : Nat :=
  if c.toNat ≤ 0x39 then c.toNat - 0x30
  else if c.toNat ≤ 0x46 then c.toNat - 0x41 + 10
  else c.toNat - 0x61 + 10

/-- `hexval(s)` (R8): the number a string of hexadecimal digits spells, most significant digit first. -/
def hexval (s : Bytes) : Nat := s.foldl (fun acc c => 16 * acc + hexDigitVal c) 0

/-- One uppercase hexadecimal digit. -/
def hexDigit (n : Nat) : Byte :=
  if n < 10 then BitVec.ofNat 8 (0x30 + n) else BitVec.ofNat 8 (0x41 + (n - 10))

/-- `hexN(v)` (R8): exactly `n` uppercase hexadecimal digits, most significant first. -/
def hexN : Nat → Nat → Bytes
  | 0, _ => []
  | n + 1, v => hexN n (v / 16) ++ [hexDigit (v % 16)]

/-- `upper` on one byte (R8). -/
def upperByte (c : Byte) : Byte :=
  if 0x61 ≤ c.toNat && c.toNat ≤ 0x7A then c - 0x20 else c

/-- `upper(s)` (R8). -/
def upper (s : Bytes) : Bytes := s.map upperByte

/-- CR or LF, the bytes that end a line (R74). -/
def isTerminator (c : Byte) : Bool := c == 0x0D || c == 0x0A

/-- `u` without the prefix `p`, if `u` begins with `p`. -/
def stripPrefix : (p u : Bytes) → Option Bytes
  | [], u => some u
  | _ :: _, [] => none
  | a :: p, b :: u => if a == b then stripPrefix p u else none

/-! ## Byte order -/

/-- The four bytes of a 32-bit word, least significant first. -/
def le32 (w : Word32) : Bytes :=
  [w.extractLsb' 0 8, w.extractLsb' 8 8, w.extractLsb' 16 8, w.extractLsb' 24 8]

/-- The 32-bit word of four bytes, least significant first. -/
def ofLe32 (b0 b1 b2 b3 : Byte) : Word32 := b3 ++ b2 ++ b1 ++ b0

/-! ## Frames -/

/-- `data[0] .. data[7]` in order (R52 (a)). -/
def Payload.toList (p : Payload) : Bytes := [p.b0, p.b1, p.b2, p.b3, p.b4, p.b5, p.b6, p.b7]

/-- The id word (R71): bit 31 `ext`, bit 30 `rtr`, bit 29 zero, bits 28:0 the identifier. -/
def idWord (f : CanFrame) : Word32 :=
  BitVec.ofBool f.ext ++ BitVec.ofBool f.rtr ++ (0 : BitVec 1) ++ f.id

/-- Why an input is not a command: the reserved and illegal encodings of R85 (d), (e), and inputs too short or
with an operand outside the range R73 gives it. All are safe: the model makes no transition. -/
inductive DecodeError where
  /-- The input has no byte, or ends before the command's operands do. -/
  | truncated
  /-- An operation code above 0x11 (R73, U1). -/
  | reservedCode (op : Byte)
  /-- An id word with bit 29 set (R71, U2). -/
  | reservedIdBit
  /-- A data length code above 8 (R11, U3). -/
  | dlcAboveEight
  /-- A flag argument other than 0 and 1 (R73). -/
  | flagNotZeroOne
  /-- A bus or count argument above 255 (R73: `u8`). -/
  | argumentTooWide
  /-- A host line with no CR or LF at its end (R74). -/
  | unterminated
  deriving DecidableEq, Repr, Inhabited

/-- A frame from its id word, length byte and eight data bytes; refused on U2 and U3. A word with `ext` clear and an
identifier above 0x7FF gives neither of R70's two kinds of frame, and no rule says what the ports do with it: the frame
is accepted as it is (DESIGN CHOICE, assumption 27). -/
def frameOf (w : Word32) (dlc : Byte) (data : Payload) : Except DecodeError CanFrame :=
  if w.getLsbD 29 then .error .reservedIdBit
  else if h : dlc.toNat < 9 then
    .ok { id := w.extractLsb' 0 29, ext := w.getLsbD 31, rtr := w.getLsbD 30, dlc := ⟨dlc.toNat, h⟩, data := data }
  else .error .dlcAboveEight

/-- A frame as the `API` and `CTRL_TX` ports carry it: id word, length, eight data bytes. -/
def encodeFrame (f : CanFrame) : Bytes :=
  le32 (idWord f) ++ [BitVec.ofNat 8 f.dlc.val] ++ f.data.toList

/-- `data` with the bytes from position `n` on taken from `pad`: a wire frame carries `n` data bytes, the rest
is a draw (R11). -/
def padTo (n : Nat) (data pad : Payload) : Payload :=
  { b0 := if 0 < n then data.b0 else pad.b0, b1 := if 1 < n then data.b1 else pad.b1,
    b2 := if 2 < n then data.b2 else pad.b2, b3 := if 3 < n then data.b3 else pad.b3,
    b4 := if 4 < n then data.b4 else pad.b4, b5 := if 5 < n then data.b5 else pad.b5,
    b6 := if 6 < n then data.b6 else pad.b6, b7 := if 7 < n then data.b7 else pad.b7 }

/-- The frame a controller delivers on `CTRL_RX` (R130, R294 (3)): the id word and the length it received, the data
bytes up to the length, and `pad` beyond it. -/
def wireFrame (w : Word32) (dlc : Byte) (data pad : Payload) : Except DecodeError CanFrame :=
  frameOf w dlc (padTo dlc.toNat data pad)

/-! ## Host lines -/

/-- The two bytes `"AT"`. -/
def atStart : Bytes := [0x41, 0x54]

/-- The rows of R76. -/
inductive AtRow where
  | atdesc | atsp | atat | atst | atdp | atpc | atrv | at1 | atsh | atma
  | ate | atm | atl | ats | ath | atd | atz | ati
  deriving DecidableEq, Repr, Inhabited

/-- The prefix table of R76, in its priority order. -/
def atTable : List (AtRow × Bytes) :=
  [ (.atdesc, [0x41, 0x54, 0x44, 0x45, 0x53, 0x43]),
    (.atsp, [0x41, 0x54, 0x53, 0x50]),
    (.atat, [0x41, 0x54, 0x41, 0x54]),
    (.atst, [0x41, 0x54, 0x53, 0x54]),
    (.atdp, [0x41, 0x54, 0x44, 0x50]),
    (.atpc, [0x41, 0x54, 0x50, 0x43]),
    (.atrv, [0x41, 0x54, 0x52, 0x56]),
    (.at1, [0x41, 0x54, 0x40, 0x31]),
    (.atsh, [0x41, 0x54, 0x53, 0x48]),
    (.atma, [0x41, 0x54, 0x4D, 0x41]),
    (.ate, [0x41, 0x54, 0x45]),
    (.atm, [0x41, 0x54, 0x4D]),
    (.atl, [0x41, 0x54, 0x4C]),
    (.ats, [0x41, 0x54, 0x53]),
    (.ath, [0x41, 0x54, 0x48]),
    (.atd, [0x41, 0x54, 0x44]),
    (.atz, [0x41, 0x54, 0x5A]),
    (.ati, [0x41, 0x54, 0x49]) ]

/-- The first row of `table` whose prefix begins `u`, with the rest of `u` (R76). -/
def findRow : List (AtRow × Bytes) → Bytes → Option (AtRow × Bytes)
  | [], _ => none
  | (row, p) :: table, u =>
    match stripPrefix p u with
    | some rest => some (row, rest)
    | none => findRow table u

/-- A flag argument (R77 (a)): the first byte decides, later bytes are ignored. -/
def flagArg : Bytes → Option Bool
  | c :: _ => if c == 0x31 then some true else if c == 0x30 then some false else none
  | [] => none

/-- The argument of `ATSP` (R77 (b)). -/
def protocolArg : Bytes → Option Protocol
  | c :: _ =>
    if c == 0x36 then some .p6
    else if c == 0x37 then some .p7
    else if c == 0x38 then some .p8
    else if c == 0x39 then some .p9
    else none
  | [] => none

/-- The value of `rest` if it is `lo` to `hi` hexadecimal digits and nothing else (R77 (c), (d)). -/
def hexArg (lo hi : Nat) (rest : Bytes) : Option Nat :=
  if lo ≤ rest.length && rest.length ≤ hi && rest.all isHex then some (hexval rest) else none

/-- The argument of a row read from `rest` (R77); none if it does not meet its form. -/
def parseArg : AtRow → Bytes → Option LineCmd
  | .atdesc, _ => some .atdesc
  | .atsp, rest => (protocolArg rest).map .atsp
  | .atat, rest => (flagArg rest).map .atat
  | .atst, rest => (hexArg 1 2 rest).map fun v => .atst (BitVec.ofNat 8 v)
  | .atdp, rest => some (.atdp (rest.head? == some 0x4E))
  | .atpc, _ => some .atpc
  | .atrv, _ => some .atrv
  | .at1, _ => some .at1
  | .atsh, rest =>
    match hexArg 1 8 rest with
    | some v => if v ≤ 0x1FFFFFFF then some (.atsh (BitVec.ofNat 29 v)) else none
    | none => none
  | .atma, rest => (flagArg rest).map .atma
  | .ate, rest => (flagArg rest).map .ate
  | .atm, rest => (flagArg rest).map .atm
  | .atl, rest => (flagArg rest).map .atl
  | .ats, rest => (flagArg rest).map .ats
  | .ath, rest => (flagArg rest).map .ath
  | .atd, rest => (flagArg rest).map .atd
  | .atz, _ => some .atz
  | .ati, _ => some .ati

/-- `AT_DISPATCH`'s decoding (R193) of an uppercased line that begins with `"AT"`. -/
def decodeAt (u : Bytes) : LineCmd :=
  match findRow atTable u with
  | none => .unknownAt u
  | some (row, rest) => (parseArg row rest).getD (.malformedAt u)

/-- The four PID shapes (R78) of an uppercased all-hexadecimal line; any other length is invalid. -/
def decodePid (u : Bytes) : LineCmd :=
  match u with
  | [m1, m0, p1, p0] => .pid4 (BitVec.ofNat 8 (hexval [m1, m0])) (BitVec.ofNat 8 (hexval [p1, p0]))
  | [m1, m0, p1, p0, e] =>
    .pid5 (BitVec.ofNat 8 (hexval [m1, m0])) (BitVec.ofNat 8 (hexval [p1, p0])) (BitVec.ofNat 4 (hexval [e]))
  | [m1, m0, p3, p2, p1, p0] =>
    .pid6 (BitVec.ofNat 8 (hexval [m1, m0])) (BitVec.ofNat 16 (hexval [p3, p2, p1, p0]))
  | [m1, m0, p3, p2, p1, p0, e] =>
    .pid7 (BitVec.ofNat 8 (hexval [m1, m0])) (BitVec.ofNat 16 (hexval [p3, p2, p1, p0]))
      (BitVec.ofNat 4 (hexval [e]))
  | _ => .invalidLine u

/-- The classification of a non-empty line (R75 (2) to (4)), done on its upper-case form. -/
def classify (s : Bytes) : LineCmd :=
  let u := upper s
  match stripPrefix atStart u with
  | some _ => decodeAt u
  | none => if u.all isHex then decodePid u else .invalidLine u

/-- The instruction a complete line is (R75): the empty line is the repeat form (R86). -/
def decodeLine (s : Bytes) : Instr :=
  if s.isEmpty then .repeatLine else (classify s).toInstr

/-- The bytes before the first CR or LF, and those after it (R74). -/
def splitLine : Bytes → Option (Bytes × Bytes)
  | [] => none
  | c :: cs =>
    if isTerminator c then some ([], cs)
    else (splitLine cs).map fun p => (c :: p.1, p.2)

/-! ## Transport API commands -/

/-- The operands of a command that carries a frame (R73): id word, length byte, eight data bytes. -/
def decodeFrameOperand : Bytes → Except DecodeError (CanFrame × Bytes)
  | w0 :: w1 :: w2 :: w3 :: dlc :: d0 :: d1 :: d2 :: d3 :: d4 :: d5 :: d6 :: d7 :: rest =>
    match frameOf (ofLe32 w0 w1 w2 w3) dlc ⟨d0, d1, d2, d3, d4, d5, d6, d7⟩ with
    | .ok f => .ok (f, rest)
    | .error e => .error e
  | _ => .error .truncated

/-- The numeric argument `arg` (R73, `u32`). -/
def decodeArg : Bytes → Except DecodeError (Word32 × Bytes)
  | a0 :: a1 :: a2 :: a3 :: rest => .ok (ofLe32 a0 a1 a2 a3, rest)
  | _ => .error .truncated

/-- A flag argument: 0 or 1 (R73). -/
def flagOfWord (w : Word32) : Except DecodeError Bool :=
  if w == 0 then .ok false else if w == 1 then .ok true else .error .flagNotZeroOne

/-- A `u8` argument (a bus count, the second bus of a bridge pair). -/
def byteOfWord (w : Word32) : Except DecodeError Byte :=
  if w.toNat < 256 then .ok (w.setWidth 8) else .error .argumentTooWide

/-- A command with the one operand `bus`. -/
def busOnly (mk : BusIx → Instr) : Bytes → Except DecodeError (Instr × Bytes)
  | bus :: rest => .ok (mk bus, rest)
  | [] => .error .truncated

/-- A command with operands `bus` and `arg`. -/
def busArg (mk : BusIx → Word32 → Except DecodeError Instr) : Bytes → Except DecodeError (Instr × Bytes)
  | bus :: rest =>
    match decodeArg rest with
    | .ok (w, rest') => match mk bus w with
      | .ok i => .ok (i, rest')
      | .error e => .error e
    | .error e => .error e
  | [] => .error .truncated

/-- A command with operands `bus` and a frame. -/
def busFrame (mk : BusIx → CanFrame → Instr) : Bytes → Except DecodeError (Instr × Bytes)
  | bus :: rest =>
    match decodeFrameOperand rest with
    | .ok (f, rest') => .ok (mk bus f, rest')
    | .error e => .error e
  | [] => .error .truncated

/-- The operands of the command with operation code `op` (the table of R73); codes above 0x11 are reserved. -/
def decodeOperands (op : Nat) (code : Byte) (rest : Bytes) : Except DecodeError (Instr × Bytes) :=
  match op with
  | 0x00 => busArg (fun b w => .ok (.enable b w)) rest
  | 0x01 => busOnly .disable rest
  | 0x02 => busArg (fun b w => .ok (.setBitrate b w)) rest
  | 0x03 => busArg (fun b w => (flagOfWord w).map (.setListenOnly b)) rest
  | 0x04 => busOnly .isEnabled rest
  | 0x05 => busOnly .getBitrate rest
  | 0x06 => busOnly .isListenOnly rest
  | 0x07 => busFrame .send rest
  | 0x08 => busOnly .receive rest
  | 0x09 => busOnly .getRxBufferedFrames rest
  | 0x0A => busOnly .getTxBufferedFrames rest
  | 0x0B => busOnly .getRxOverflowCount rest
  | 0x0C => busOnly .getTxOverflowCount rest
  | 0x0D => .ok (.getNumBusses, rest)
  | 0x0E =>
    match decodeArg rest with
    | .ok (w, rest') => match byteOfWord w with
      | .ok n => .ok (.setNumBusses n, rest')
      | .error e => .error e
    | .error e => .error e
  | 0x0F => busOnly .getStatistics rest
  | 0x10 => busArg (fun b w => (byteOfWord w).map (.setBridge b)) rest
  | 0x11 => busFrame .handleBridge rest
  | _ => .error (.reservedCode code)

/-- A Transport API command from its bytes: the operation code, then its operands (R73). -/
def decodeApi : Bytes → Except DecodeError (Instr × Bytes)
  | [] => .error .truncated
  | op :: rest => decodeOperands op.toNat op rest

/-! ## The decoder -/

/-- The two ports that carry encoded instructions: `API` and `HOST_IN` (R7). -/
inductive Port where
  | api
  | hostIn
  deriving DecidableEq, Repr, Inhabited

/-- The instruction at the head of a port's bytes, with the bytes after it; total, refusing by name. -/
def decode (p : Port) (bs : Bytes) : Except DecodeError (Instr × Bytes) :=
  match p with
  | .api => decodeApi bs
  | .hostIn =>
    match splitLine bs with
    | some (line, rest) => .ok (decodeLine line, rest)
    | none => .error .unterminated

/-! ## The encoder -/

/-- `"1"` or `"0"`. -/
def flagByte (on : Bool) : Byte := if on then 0x31 else 0x30

/-- The digit of `ATSP`. -/
def Protocol.digit : Protocol → Byte
  | .p6 => 0x36
  | .p7 => 0x37
  | .p8 => 0x38
  | .p9 => 0x39

/-- The line, without its terminator, that spells a command (R76, R77, R78). -/
def encodeLine : LineCmd → Bytes
  | .atdesc => [0x41, 0x54, 0x44, 0x45, 0x53, 0x43]
  | .atsp d => [0x41, 0x54, 0x53, 0x50, d.digit]
  | .atat on => [0x41, 0x54, 0x41, 0x54, flagByte on]
  | .atst hh => [0x41, 0x54, 0x53, 0x54] ++ hexN 2 hh.toNat
  | .atdp numeric => [0x41, 0x54, 0x44, 0x50] ++ (if numeric then [0x4E] else [])
  | .atpc => [0x41, 0x54, 0x50, 0x43]
  | .atrv => [0x41, 0x54, 0x52, 0x56]
  | .at1 => [0x41, 0x54, 0x40, 0x31]
  | .atsh h => [0x41, 0x54, 0x53, 0x48] ++ hexN 8 h.toNat
  | .atma on => [0x41, 0x54, 0x4D, 0x41, flagByte on]
  | .ate on => [0x41, 0x54, 0x45, flagByte on]
  | .atm on => [0x41, 0x54, 0x4D, flagByte on]
  | .atl on => [0x41, 0x54, 0x4C, flagByte on]
  | .ats on => [0x41, 0x54, 0x53, flagByte on]
  | .ath on => [0x41, 0x54, 0x48, flagByte on]
  | .atd on => [0x41, 0x54, 0x44, flagByte on]
  | .atz => [0x41, 0x54, 0x5A]
  | .ati => [0x41, 0x54, 0x49]
  | .pid4 mode pid => hexN 2 mode.toNat ++ hexN 2 pid.toNat
  | .pid5 mode pid expected => hexN 2 mode.toNat ++ hexN 2 pid.toNat ++ hexN 1 expected.toNat
  | .pid6 mode pid => hexN 2 mode.toNat ++ hexN 4 pid.toNat
  | .pid7 mode pid expected => hexN 2 mode.toNat ++ hexN 4 pid.toNat ++ hexN 1 expected.toNat
  | .unknownAt u => u
  | .malformedAt u => u
  | .invalidLine u => u

/-- A host line as it stands on `HOST_IN`: the line and one CR. -/
def hostWords (c : LineCmd) : Option (Port × Bytes) := some (.hostIn, encodeLine c ++ [0x0D])

/-- An API command as it stands on `API`. -/
def apiWords (op : Byte) (operands : Bytes) : Option (Port × Bytes) := some (.api, op :: operands)

/-- A byte widened to the `u32` argument. -/
def argOfByte (b : Byte) : Bytes := le32 (b.setWidth 32)

/-- The port and bytes of an instruction. The internal events have a name and no bit pattern (R87): none. -/
def encode : Instr → Option (Port × Bytes)
  | .enable bus rate => apiWords 0x00 (bus :: le32 rate)
  | .disable bus => apiWords 0x01 [bus]
  | .setBitrate bus rate => apiWords 0x02 (bus :: le32 rate)
  | .setListenOnly bus flag => apiWords 0x03 (bus :: le32 (if flag then 1 else 0))
  | .isEnabled bus => apiWords 0x04 [bus]
  | .getBitrate bus => apiWords 0x05 [bus]
  | .isListenOnly bus => apiWords 0x06 [bus]
  | .send bus frame => apiWords 0x07 (bus :: encodeFrame frame)
  | .receive bus => apiWords 0x08 [bus]
  | .getRxBufferedFrames bus => apiWords 0x09 [bus]
  | .getTxBufferedFrames bus => apiWords 0x0A [bus]
  | .getRxOverflowCount bus => apiWords 0x0B [bus]
  | .getTxOverflowCount bus => apiWords 0x0C [bus]
  | .getNumBusses => apiWords 0x0D []
  | .setNumBusses n => apiWords 0x0E (argOfByte n)
  | .getStatistics bus => apiWords 0x0F [bus]
  | .setBridge bus1 bus2 => apiWords 0x10 (bus1 :: argOfByte bus2)
  | .handleBridge bus frame => apiWords 0x11 (bus :: encodeFrame frame)
  | .atdesc => hostWords .atdesc
  | .atsp d => hostWords (.atsp d)
  | .atat on => hostWords (.atat on)
  | .atst hh => hostWords (.atst hh)
  | .atdp numeric => hostWords (.atdp numeric)
  | .atpc => hostWords .atpc
  | .atrv => hostWords .atrv
  | .at1 => hostWords .at1
  | .atsh h => hostWords (.atsh h)
  | .atma on => hostWords (.atma on)
  | .ate on => hostWords (.ate on)
  | .atm on => hostWords (.atm on)
  | .atl on => hostWords (.atl on)
  | .ats on => hostWords (.ats on)
  | .ath on => hostWords (.ath on)
  | .atd on => hostWords (.atd on)
  | .atz => hostWords .atz
  | .ati => hostWords .ati
  | .repeatLine => some (.hostIn, [0x0D])
  | .pid4 mode pid => hostWords (.pid4 mode pid)
  | .pid5 mode pid expected => hostWords (.pid5 mode pid expected)
  | .pid6 mode pid => hostWords (.pid6 mode pid)
  | .pid7 mode pid expected => hostWords (.pid7 mode pid expected)
  | .unknownAt u => hostWords (.unknownAt u)
  | .malformedAt u => hostWords (.malformedAt u)
  | .invalidLine u => hostWords (.invalidLine u)
  | .rxEvent _ _ => none
  | .txStep => none
  | .rxTaskStep _ => none
  | .persist => none
  | .loadSettings => none
  | .fsmStep _ => none
  | .hostByte _ => none
  | .dispatchLine _ => none
  | .handleCanFrame _ => none
  | .processCanFrame _ => none
  | .formatFrameOutput _ => none
  | .sendFlowControl _ => none
  | .updateTimeout _ => none
  | .checkForTimeout => none
  | .closeOut => none
  | .reset => none

/-! ## The opcode table's words -/

/-- The `n` lowest bytes of `w`, the first byte lowest. -/
def bytesOfNat : Nat → Nat → Bytes
  | 0, _ => []
  | n + 1, w => BitVec.ofNat 8 w :: bytesOfNat n (w / 256)

/-- The longest Transport API command: code, bus, id word, length, eight data bytes. -/
def apiMaxBytes : Nat := 15

/-- Which port a table word is for: the API rows have eight bits, the operation code; the AT rows are the prefix
bytes of a host line, at least three bytes of ASCII. -/
def tableWordPort (nbits w : Nat) : Port :=
  if nbits ≤ 8 || w % 256 ≤ 0x11 then .api else .hostIn

/-- The bytes of a table word as its port carries them: an API command with zeros above `nbits`, up to the
longest command; a host line of the word's bytes. -/
def tableWordBytes (nbits w : Nat) : Bytes :=
  match tableWordPort nbits w with
  | .api => bytesOfNat apiMaxBytes (w % 2 ^ nbits)
  | .hostIn => bytesOfNat (nbits / 8) w

/-- The instruction the decoder reads from an opcode-table word (bit 0 the least significant bit of the first
byte). A host line is ended by one CR (R74). -/
def decodeTableWord (nbits w : Nat) : Option Instr :=
  match tableWordPort nbits w with
  | .api => (decode .api (tableWordBytes nbits w)).toOption.map Prod.fst
  | .hostIn => (decode .hostIn (tableWordBytes nbits w ++ [0x0D])).toOption.map Prod.fst

end Sys2Proof
end

