-- ==== Sys2Proof/Machine/State.lean ====
section
/-! DEFINITION. State as plain data: everything spec/10_state.md gives the block, the output streams by which it is
observed (R30), and the model's own fields (the environment's draws, the schedule, the held operations). -/

namespace Sys2Proof.Machine

/-- Why the machine stops with a fault. -/
inductive Fault where
  /-- Raised by `FSM_STEP` when the `enter()` cascade never stabilises (R179, U11: stuck). Safe: the run makes no
  further claim. -/
  | fsmHang
  /-- Raised by `FSM_STEP` of an engine instance that an earlier step left at an unknown target, or whose current
  identity is not registered (R178, U10: no claim about later steps). Safe. -/
  | fsmInstance
  deriving DecidableEq, Repr, Inhabited

/-- A subsystem that start-up can disable (R29). -/
inductive Subsystem where
  | transport
  | elm
  deriving DecidableEq, Repr, Inhabited

/-- Why the machine has no transition. All are safe: no claim is made about the case. -/
inductive Refusal where
  /-- Raised by `exec`'s arm of an instruction that has no meaning yet. Safe. -/
  | notModelled (mnemonic : String)
  /-- Raised by the fetch when the bytes are no command (R85 (d), (e); U1, U2, U3). Safe. -/
  | undecodable (e : DecodeError)
  /-- Raised by `HOST_BYTE` when the line is full (R190, U4). Safe. -/
  | lineTooLong
  /-- Raised by `SET_NUM_BUSSES` for a count not below `MAX_BUSSES` or not above a running bus (R109, U7). Safe. -/
  | busCount
  /-- Raised by every operation of a subsystem whose creation failed (R29, U12). Safe. -/
  | subsystemDisabled (sub : Subsystem)
  /-- Raised by a PID request while one is outstanding (R218, U13). Safe. -/
  | requestOutstanding
  /-- Raised by a PID request with standard addressing and a header above 0x7FF (R215, U15). Safe. -/
  | headerNotStandard
  /-- Raised by `FSM_STEP` of an engine instance that was not constructed (R175, R180). Safe. -/
  | noEngine
  /-- Raised by the fetch when the scheduled agent is holding in an earlier operation and takes no step (R139).
  Safe. -/
  | agentHolding
  deriving DecidableEq, Repr, Inhabited

/-- A command to a controller (R113). -/
inductive CtrlCmd where
  | start (rate : Word32)
  | stop
  deriving DecidableEq, Repr, Inhabited

/-- A log event: the causes of R287 that are logged. -/
inductive LogEvent where
  | invalidBus (b : BusIx)
  | notEnabled (b : BusIx)
  | listenOnly (b : BusIx)
  | queueFull (b : BusIx)
  | lockTimeout
  | persistFail
  | badCommand (u : Bytes)
  | unknownAt (u : Bytes)
  | malformedAt (u : Bytes)
  | unknownState (id : Nat)
  | subsystemDisabled (sub : Subsystem)
  deriving DecidableEq, Repr, Inhabited

/-- What a completed operation returns to its caller (R73, R286). -/
inductive Answer where
  /-- `IS_ENABLED`, `IS_LISTENONLY`, `HANDLE_BRIDGE`. -/
  | bool (v : Bool)
  /-- The `u32` getters. -/
  | word (v : Word32)
  /-- `GET_NUM_BUSSES`. -/
  | count (v : Byte)
  /-- `SEND`: an `i32`, negative on error. -/
  | code (r : Int)
  /-- `RECEIVE`: an `i32`, and the frame when it is not negative. -/
  | received (r : Int) (f : Option CanFrame)
  /-- `GET_STATISTICS`: the flag, and the record copied to the caller. -/
  | stats (ok : Bool) (record : Option Bytes)
  /-- `FORMAT_FRAME_OUTPUT`: the text line. -/
  | text (line : Bytes)
  /-- `FSM_STEP`: the side output. -/
  | sideOutput (o : Nat)
  deriving DecidableEq, Repr, Inhabited

/-- Who called `HANDLE_CAN_FRAME`: a direct start of the operation, or the receive task of a bus (R163). -/
inductive FrameCaller where
  | direct
  | rxTask (bus : BusIx)
  deriving DecidableEq, Repr, Inhabited

/-- The rest of the operation that called `SEND` (R131): what happens with its result. -/
inductive SendCont where
  /-- `SEND` itself: the result goes to the caller. -/
  | client
  /-- `HANDLE_BRIDGE` on the API: the caller gets whether the frame was forwarded (R162). -/
  | bridge
  /-- `HANDLE_BRIDGE` inside `RX_TASK_STEP(bus)` for the frame the task holds (R163). -/
  | rxBridge (bus : BusIx) (frame : CanFrame)
  /-- A PID request: arm the pending request (R215). -/
  | pid (service : Byte) (pid : BitVec 16) (expected : Byte)
  /-- `SEND_FLOW_CONTROL` alone (R247). -/
  | flow
  /-- The flow control of `PROCESS_CAN_FRAME` for `f`: its text line and step 3 follow (R241), then the caller's
  rest. -/
  | frame (caller : FrameCaller) (f : CanFrame) (line : Bytes)
  deriving DecidableEq, Repr, Inhabited

/-- An operation that holds (R139): it has passed its checks, waits for its queue, and will look again. -/
inductive Held where
  | send (bus : BusIx) (f : CanFrame) (k : SendCont)
  | receive (bus : BusIx)
  deriving DecidableEq, Repr, Inhabited

/-- Where the receive task of a bus stands between the transitions of R163. -/
inductive RxPhase where
  | idle
  /-- Holding in `RECEIVE` on an empty queue. -/
  | receiving
  /-- `f` taken; `HANDLE_BRIDGE` is next. -/
  | bridging (f : CanFrame)
  /-- Holding in the `SEND` of `f` to `other`. -/
  | forwarding (other : BusIx) (f : CanFrame)
  /-- `HANDLE_CAN_FRAME(f)` is next. -/
  | emulating (f : CanFrame)
  /-- Holding in the `SEND` of the flow-control frame `fc` to `bus`, for the received frame `f` with its text
  line. -/
  | answering (bus : BusIx) (fc f : CanFrame) (line : Bytes)
  deriving DecidableEq, Repr, Inhabited

/-- Everything the block holds for one bus. -/
structure Bus where
  /-- `cfg[b]` (R13). -/
  cfg : BusConfig
  /-- `ctrl_running[b]`, `ctrl_rate[b]` (R14). -/
  ctrlRunning : Bool
  ctrlRate : Word32
  /-- `irq_registered[b]` (R15). -/
  irqRegistered : Bool
  /-- `RXQ[b]` (R16), the head first. -/
  rxq : List CanFrame
  /-- `TXQ[b]` (R17), the head first. -/
  txq : List CanFrame
  /-- `rx_overflow[b]`, `tx_overflow[b]` (R18). -/
  rxOverflow : Word32
  txOverflow : Word32
  /-- Where `RXTASK[b]` stands (R163). -/
  rxTask : RxPhase
  /-- The output `CAN_OUT[b]` (R30), the oldest first. -/
  canOut : List CanFrame
  /-- The output `CTRL_CMD[b]` (R30), the oldest first. -/
  ctrlCmd : List CtrlCmd
  deriving DecidableEq, Repr, Inhabited

/-- The bridge pair (R20). -/
structure Bridge where
  a : BusIx
  b : BusIx
  deriving DecidableEq, Repr, Inhabited

/-- The `PendingRequest` (R23). `elm_state` (R26 (a)) is `valid`. -/
structure Pending where
  valid : Bool
  service : Byte
  pid : BitVec 16
  tStart : Word32
  tLast : Word32
  received : Word32
  expected : Byte
  processed : Bool
  deriving DecidableEq, Repr, Inhabited

/-- The persisted record `nvm` (R28, R72). -/
structure NvmRecord where
  valid : Bool
  busCount : Byte
  busConfig : List BusConfig
  deriving DecidableEq, Repr, Inhabited

/-- A State Machine Engine instance: `fsm_current`, `fsm_user` (R25), and whether it is at fault (R178). -/
structure FsmEngine where
  current : Nat
  user : Nat
  faulted : Bool
  deriving DecidableEq, Repr, Inhabited

/-- An instance as constructed (R175, R310 step 5). -/
def FsmParams.fresh (p : FsmParams) : FsmEngine := { current := p.initial, user := p.userInit, faulted := false }

/-- The state of the block. -/
structure State where
  /-- The instance's parameters (R5); fixed from reset to reset and beyond (R6), no operation writes them. -/
  inst : Params
  /-- `NUM_BUSSES` (R12). -/
  numBusses : Byte
  /-- The per-bus state of buses `0 .. MAX_BUSSES-1`. -/
  buses : List Bus
  /-- `bridge` (R20). -/
  bridge : Bridge
  /-- `sess` (R21). -/
  sess : ElmSession
  /-- `est_avg` (R22). -/
  estAvg : Word32
  /-- `pend` (R23). -/
  pend : Pending
  /-- `line_buf`, `last_cmd` (R24). -/
  lineBuf : Bytes
  lastCmd : Bytes
  /-- The State Machine Engine instances, in the order of their parameters (R25, R180). -/
  engines : List FsmEngine
  /-- `arb_ptr` (R26 (c)). -/
  arbPtr : Byte
  /-- `nvm` (R28). -/
  nvm : NvmRecord
  /-- `subsys_ok.transport`, `subsys_ok.elm` (R29). -/
  transportOk : Bool
  elmOk : Bool
  /-- The clock's reading `now()` (R31, R293). -/
  clock : Word32
  /-- Operations of `CLIENT` and `ELMTASK` that hold (R139). -/
  held : List Held
  /-- The output `HOST_OUT` (R30). -/
  hostOut : Bytes
  /-- The output `LOG` (R30), the oldest first. -/
  log : List LogEvent
  /-- The results returned to callers (R30, R73), the oldest first. -/
  answers : List Answer
  /-- The frames delivered to the other protocol adapters (R163), the oldest first. -/
  adapterOut : List (BusIx × CanFrame)
  /-- The model's own: what the environment draws for the current step (R8, R32). -/
  draws : Draws
  /-- The model's own: the schedule, as far as it is listed (R7). -/
  script : List Stimulus
  /-- The model's own: how many steps have been taken, the index of the next free stimulus. -/
  turn : Nat
  deriving DecidableEq, Repr, Inhabited

/-- A cleared pending request (R38). -/
def Pending.none : Pending :=
  { valid := false, service := 0, pid := 0, tStart := 0, tLast := 0, received := 0, expected := 0
    processed := false }

/-- The volatile state of a bus right after start-up step 2 (R310), with configuration `c`. -/
def Bus.fresh (c : BusConfig) : Bus :=
  { cfg := c, ctrlRunning := false, ctrlRate := 0, irqRegistered := false, rxq := [], txq := []
    rxOverflow := 0, txOverflow := 0, rxTask := .idle, canOut := [], ctrlCmd := [] }

/-- The fallback configuration of a bus (R111, D12). -/
def defaultCfg (p : Params) : BusConfig :=
  { enabled := false, listenOnly := false, bitrate := p.defaultBitrate }

/-- The machine right after reset (R38): the test instance T1, no valid persisted record, both subsystems
created. The log holds the `PersistFail` that `LOAD_SETTINGS` writes for want of a record (R111). -/
def State.reset : State :=
  { inst := Config.t1
    numBusses := 3
    buses := List.replicate 4 (Bus.fresh (defaultCfg Config.t1))
    bridge := { a := 0, b := 0 }
    sess := Config.t1Session
    estAvg := 100
    pend := Pending.none
    lineBuf := []
    lastCmd := []
    engines := Config.t1.engines.map FsmParams.fresh
    arbPtr := 0
    nvm := { valid := false, busCount := 0, busConfig := List.replicate 4 (defaultCfg Config.t1) }
    transportOk := true
    elmOk := true
    clock := 0
    held := []
    hostOut := []
    log := [.persistFail]
    answers := []
    adapterOut := []
    draws := Config.plainDraws
    script := []
    turn := 0 }

end Sys2Proof.Machine
end

