-- ==== Sys2Proof/Machine/Flags.lean ====
section
/-! DEFINITION. The conditions and the arithmetic of the rules: the clamps (R65 (c), R112), elapsed time (R65 (b)),
the estimator (R249), the tests that end an exchange (R248, R250), the bridge's activity (R161). -/

namespace Sys2Proof.Machine

/-- `clamp_rate(r) = min(r, MAX_BITRATE)` (R112). -/
def clampRate (p : Params) (r : Word32) : Word32 :=
  if p.maxBitrate.toNat < r.toNat then p.maxBitrate else r

/-- `clamp(v, lo, hi)` (R65 (c)). -/
def clamp (v lo hi : Nat) : Nat := if v < lo then lo else if hi < v then hi else v

/-- `(now() - t) mod 2^32` (R65 (b)). -/
def elapsedSince (now t : Word32) : Word32 := now - t

/-- `(avg*7 + sample*3)/10` on natural numbers, truncating (R249, R65 (d)). -/
def nextAverage (avg sample : Word32) : Nat := (avg.toNat * 7 + sample.toNat * 3) / 10

/-- `clamp(a*4, MIN_TIMEOUT_MS, MAX_TIMEOUT_MS)` (R249). -/
def nextTimeout (p : Params) (a : Nat) : Word32 :=
  BitVec.ofNat 32 (clamp (a * 4) p.minTimeoutMs.toNat p.maxTimeoutMs.toNat)

/-- An expected-frame target is set and reached (R248). -/
def targetReached (p : Pending) : Bool := p.expected != 0 && p.expected.toNat ≤ p.received.toNat

/-- The grace period is over: `(t - pend.t_last) mod 2^32 >= 250` (R250). -/
def graceOver (p : Pending) (now : Word32) : Bool := graceMs ≤ (elapsedSince now p.tLast).toNat

/-- The wait for a first response is over: `(t - pend.t_start) mod 2^32 > timeout` (R250). -/
def waitOver (p : Pending) (timeout now : Word32) : Bool := timeout.toNat < (elapsedSince now p.tStart).toNat

/-- `bridge_active()` (R161). -/
def bridgeActive (br : Bridge) : Bool := br.a != br.b

/-- The side of the bridge opposite `bus`, if bridging is active and `bus` is one side (R162). -/
def bridgeOther (br : Bridge) (bus : BusIx) : Option BusIx :=
  if br.a == br.b then none
  else if bus == br.a then some br.b
  else if bus == br.b then some br.a
  else none

end Sys2Proof.Machine
end

