-- ==== Sys2Proof/Machine/Operands.lean ====
section
/-! DEFINITION. What the operations read from their operands: the first payload byte (R80), the response ranges
(R82), the flow-control frame (R81, R247), the PID request frame (R78, R79), the argument of `ATSP` (R196). -/

namespace Sys2Proof.Machine

/-! ## Received payloads: the first byte (R80) -/

/-- `b0 = data[0]`. -/
def firstByte (f : CanFrame) : Nat := f.data.b0.toNat

/-- `multi(f)`: the first byte is 0x10 or more. -/
def isMulti (f : CanFrame) : Bool := 0x10 ≤ firstByte f

/-- `first_marker(f)`: the high nibble of the first byte is 1. -/
def isFirstMarker (f : CanFrame) : Bool := f.data.b0 &&& 0xF0 == 0x10

/-- `literal_first(f)`: the first byte is exactly 0x10. -/
def isLiteralFirst (f : CanFrame) : Bool := f.data.b0 == 0x10

/-- `seq(f)`: the low nibble of the first byte. -/
def seqNibble (f : CanFrame) : Nat := firstByte f % 16

/-! ## Identifiers -/

/-- `in_resp_range(id, extended)` (R82), both bounds inclusive. -/
def inRespRange (id : BitVec 29) (extended : Bool) : Bool :=
  if extended then 0x18DAF100 ≤ id.toNat && id.toNat ≤ 0x18DAF1FF
  else 0x7E8 ≤ id.toNat && id.toNat ≤ 0x7EF

/-- The identifier the flow control goes to (R247, C1). -/
def flowTarget (id : BitVec 29) (extended : Bool) : BitVec 29 :=
  if extended then (id &&& ~~~(0xFF : BitVec 29)) ||| 0xF0 else id ^^^ 0x008

/-- The flow-control frame answering a frame with identifier `id` (R81, R247). -/
def flowFrame (id : BitVec 29) (extended : Bool) : CanFrame :=
  { id := flowTarget id extended, ext := extended, rtr := false, dlc := 8
    data := ⟨0x30, 0x00, 0x00, 0, 0, 0, 0, 0⟩ }

/-! ## The PID request (R78, R79) -/

/-- `[02, mode, pid, 0, ..]`: the payload of a one-byte pid. -/
def pidPayload1 (mode pid : Byte) : Payload := ⟨0x02, mode, pid, 0, 0, 0, 0, 0⟩

/-- `[03, mode, pid[15:8], pid[7:0], 0, ..]`: the payload of a two-byte pid. -/
def pidPayload2 (mode : Byte) (pid : BitVec 16) : Payload :=
  ⟨0x03, mode, pid.extractLsb' 8 8, pid.extractLsb' 0 8, 0, 0, 0, 0⟩

/-- The request frame: the session's header and addressing, length 8. -/
def requestFrame (sess : ElmSession) (data : Payload) : CanFrame :=
  { id := sess.headerId, ext := sess.extended, rtr := false, dlc := 8, data := data }

/-- The addressing `ATSP` selects (R196): digits 7 and 9 are extended. -/
def protocolExtended : Protocol → Bool
  | .p6 => false
  | .p7 => true
  | .p8 => false
  | .p9 => true

end Sys2Proof.Machine
end

