-- ==== Sys2Proof/Machine/Format.lean ====
section
/-! DEFINITION. Host text: the terminators (R84) and the text line of a received frame (R242 to R246). -/

namespace Sys2Proof.Machine

/-- `OK_TERM(L)` (R84 (a)). -/
def okTerm (linefeed : Bool) : Bytes :=
  if linefeed then [0x0D, 0x0A, 0x4F, 0x4B, 0x0D, 0x0A, 0x3E] else [0x0D, 0x4F, 0x4B, 0x0D, 0x0D, 0x3E]

/-- `PROMPT(L)` (R84 (b)): a parameter. -/
def promptText (p : Params) (linefeed : Bool) : Bytes := if linefeed then p.prompt.on else p.prompt.off

/-- `ERR_REPLY(L)` (R84 (c)): a parameter. -/
def errReplyText (p : Params) (linefeed : Bool) : Bytes := if linefeed then p.errReply.on else p.errReply.off

/-- `STR_ATDP(sess)` or `STR_ATDPN(sess)` (R199). -/
def addressingText (t : AddressingText) (extended : Bool) : Bytes := if extended then t.extended else t.standard

/-- `sp`: a space when whitespace is on (R242). -/
def spaceText (sess : ElmSession) : Bytes := if sess.whitespace then [0x20] else []

/-- `prefix_enabled` (R243): `H == MF_PREFIX_WHEN_HEADERS`. -/
def prefixEnabled (p : Params) (sess : ElmSession) : Bool := sess.headers == p.mfPrefixWhenHeaders

/-- `PREFIX(f)` (R243). -/
def framePrefix (p : Params) (sess : ElmSession) (f : CanFrame) : Bytes :=
  if isMulti f && prefixEnabled p sess then
    (if isLiteralFirst f then hexN 1 (seqNibble f) ++ hexN 2 f.data.b1.toNat ++ [0x0D] else []) ++
      (hexN 1 (seqNibble f) ++ [0x3A, 0x20])
  else []

/-- The printed identifier (R244). `wideId` is the free text in place of `hex3(f.id)` for an identifier that has no
three-digit form: a frame with `ext` false and an id above 0xFFF, of which the spec states no text. -/
def idText (sess : ElmSession) (wideId : Bytes) (f : CanFrame) : Bytes :=
  let id := f.id.toNat
  let sp := spaceText sess
  if f.ext then
    hexN 2 (id / 2 ^ 24) ++ sp ++ (hexN 2 (id / 2 ^ 16) ++ sp) ++ (hexN 2 (id / 2 ^ 8) ++ sp) ++ (hexN 2 id ++ sp)
  else (if id < 2 ^ 12 then hexN 3 id else wideId) ++ sp

/-- `HEADER(f)` (R244). -/
def frameHeader (sess : ElmSession) (wideId : Bytes) (f : CanFrame) : Bytes :=
  if sess.headers then
    idText sess wideId f ++ (if isMulti f then [] else hexN 2 f.dlc.val ++ spaceText sess)
  else []

/-- `DLCDIGIT(f)` (R245). -/
def frameDlcDigit (sess : ElmSession) (f : CanFrame) : Bytes :=
  if !sess.headers && !isMulti f && sess.dlcDisplay then hexN 1 (firstByte f) ++ spaceText sess else []

/-- The start of the data range (R246): 2 exactly when the length line was printed. -/
def dataStart (p : Params) (sess : ElmSession) (f : CanFrame) : Nat :=
  if isMulti f then (if prefixEnabled p sess && isLiteralFirst f then 2 else 0) else 1

/-- The end of the data range (R246). -/
def dataEnd (f : CanFrame) : Nat := if isMulti f then f.dlc.val else min (firstByte f + 1) f.dlc.val

/-- Each byte as two hexadecimal digits, `sep` between two bytes and none after the last. -/
def hexBytes (sep : Bytes) : Bytes → Bytes
  | [] => []
  | [b] => hexN 2 b.toNat
  | b :: bs => hexN 2 b.toNat ++ sep ++ hexBytes sep bs

/-- `DATA(f)` (R246). -/
def frameData (p : Params) (sess : ElmSession) (f : CanFrame) : Bytes :=
  hexBytes (spaceText sess) ((f.data.toList.take (dataEnd f)).drop (dataStart p sess f))

/-- `FORMAT_FRAME_OUTPUT(f)` (R242). -/
def formatFrame (p : Params) (sess : ElmSession) (wideId : Bytes) (f : CanFrame) : Bytes :=
  framePrefix p sess f ++ frameHeader sess wideId f ++ frameDlcDigit sess f ++ frameData p sess f ++ [0x0D]

end Sys2Proof.Machine
end

