-- ==== Sys2Proof/Machine/Ops.lean ====
section
/-! DEFINITION. The named operations the meanings are written over: buses, output streams, raising an error,
controllers, the persisted record, start-up, the emulator's bookkeeping, the queues with their hold or give up. -/

namespace Sys2Proof.Machine

/-- The outcome of an operation. -/
abbrev Result := Host.Outcome State Fault Refusal

/-! ## Subsystems (R29) -/

/-- A Transport operation: refused when the subsystem's creation failed (U12). -/
def onTransport (s : State) (r : Result) : Result :=
  if s.transportOk then r else .refused (.subsystemDisabled .transport)

/-- An emulator operation: refused when the subsystem's creation failed (U12). -/
def onElm (s : State) (r : Result) : Result := if s.elmOk then r else .refused (.subsystemDisabled .elm)

/-! ## Buses -/

/-- Bus `b`'s state; a bus outside the array reads as a fresh one. -/
def State.bus (s : State) (b : BusIx) : Bus := s.buses.getD b.toNat (Bus.fresh (defaultCfg s.inst))

/-- Bus `b`'s state replaced. -/
def State.setBus (s : State) (b : BusIx) (x : Bus) : State := { s with buses := s.buses.set b.toNat x }

/-- `valid_bus(b)` (R100). -/
def State.validBus (s : State) (b : BusIx) : Bool := b.toNat < s.numBusses.toNat

/-! ## Output streams (R8, R30) -/

/-- `host_out(bs)`. -/
def State.emit (s : State) (bs : Bytes) : State := { s with hostOut := s.hostOut ++ bs }

/-- `log(e)`. -/
def State.logEvent (s : State) (e : LogEvent) : State := { s with log := s.log ++ [e] }

/-- A result returned to the operation's caller. -/
def State.answer (s : State) (a : Answer) : State := { s with answers := s.answers ++ [a] }

/-! ## Errors (R8, R280): an error transfers no control, so nothing is saved and nothing returns from it -/

/-- `raise <Error>(info)`: one log event naming the error, and the operation's failure value if it has one. -/
def State.raiseError (s : State) (e : LogEvent) (failure : Option Answer) : State :=
  match failure with
  | some a => (s.logEvent e).answer a
  | none => s.logEvent e

/-- An operation on bus `b` that has no result: raises `InvalidBus` on an invalid index (R100). -/
def onValidBus (s : State) (b : BusIx) (r : Result) : Result :=
  onTransport s (if s.validBus b then r else .next (s.raiseError (.invalidBus b) none))

/-- A getter on bus `b` (R105 to R107, R134 to R138): answers `good`, or `bad` with `InvalidBus`. -/
def busGetter (s : State) (b : BusIx) (bad good : Answer) : Result :=
  onTransport s
    (.next (if s.validBus b then s.answer good else s.raiseError (.invalidBus b) (some bad)))

/-! ## Controllers (R113) -/

/-- `ctrl_start(b, r)` on a bus's state. -/
def Bus.ctrlStart (x : Bus) (r : Word32) : Bus :=
  { x with irqRegistered := true, ctrlRunning := true, ctrlRate := r, ctrlCmd := x.ctrlCmd ++ [.start r] }

/-- `ctrl_stop(b)` on a bus's state. -/
def Bus.ctrlStop (x : Bus) : Bus := { x with ctrlRunning := false, ctrlCmd := x.ctrlCmd ++ [.stop] }

/-! ## The persisted record (R110, R111) -/

/-- The configuration array `cfg[0 .. MAX_BUSSES-1]`. -/
def State.cfgs (s : State) : List BusConfig := s.buses.map Bus.cfg

/-- `PERSIST()`: the lock is tested before the write (R288). -/
def State.persist (s : State) : State :=
  if !s.draws.lockOk then s.logEvent .lockTimeout
  else if !s.draws.persistOk then s.logEvent .persistFail
  else { s with nvm := { valid := true, busCount := s.numBusses, busConfig := s.cfgs } }

/-- The buses with their configurations replaced, entry by entry. -/
def setCfgs : List Bus → List BusConfig → List Bus
  | x :: xs, c :: cs => { x with cfg := c } :: setCfgs xs cs
  | xs, [] => xs
  | [], _ => []

/-- A record is valid iff it can be read and its count is below `MAX_BUSSES` (R72). -/
def State.nvmOk (s : State) : Bool := s.nvm.valid && s.nvm.busCount.toNat < s.inst.maxBusses

/-- `LOAD_SETTINGS()`. -/
def State.loadSettings (s : State) : State :=
  if s.nvmOk then { s with numBusses := s.nvm.busCount, buses := setCfgs s.buses s.nvm.busConfig }
  else
    { s.logEvent .persistFail with
      numBusses := s.inst.defaultNumBusses
      buses := s.buses.map fun x => { x with cfg := defaultCfg s.inst } }

/-! ## Start-up (R310) -/

/-- The enabled ones of the first `n` buses started, with no `PERSIST` (step 3). -/
def startEnabled : Nat → List Bus → List Bus
  | 0, xs => xs
  | _ + 1, [] => []
  | n + 1, x :: xs => (if x.cfg.enabled then x.ctrlStart x.cfg.bitrate else x) :: startEnabled n xs

/-- The log events of step 1. -/
def startupLog (d : Draws) : List LogEvent :=
  (if d.transportOk then [] else [.subsystemDisabled .transport]) ++
    (if d.elmOk then [] else [.subsystemDisabled .elm])

/-- Steps 1 and 2: the subsystems drawn, the volatile Transport state and the held operations cleared, the output
streams started empty. The configurations are overwritten by step 3. -/
def State.clearVolatile (s : State) : State :=
  { s with
    transportOk := s.draws.transportOk, elmOk := s.draws.elmOk
    buses := List.replicate s.inst.maxBusses (Bus.fresh (defaultCfg s.inst))
    bridge := { a := 0, b := 0 }, arbPtr := 0, held := []
    hostOut := [], log := startupLog s.draws, answers := [], adapterOut := [] }

/-- Step 3's starts. -/
def State.startBuses (s : State) : State :=
  if s.transportOk then { s with buses := startEnabled s.numBusses.toNat s.buses } else s

/-- Steps 4 and 5: the emulator and each engine instance. -/
def State.freshEmulator (s : State) : State :=
  { s with
    sess := s.inst.elmDefaults, estAvg := s.inst.avgInit, pend := Pending.none, lineBuf := [], lastCmd := []
    engines := s.inst.engines.map FsmParams.fresh }

/-- `RESET()`: one atomic step; `nvm` survives and is not written (R312). -/
def State.resetSequence (s : State) : State := s.clearVolatile.loadSettings.startBuses.freshEmulator

/-! ## The emulator's exchange (R248, R249, R251) -/

/-- `CLOSE_OUT()` (R251). -/
def State.closeOut (s : State) : State :=
  { s.emit (promptText s.inst s.sess.linefeed) with pend := Pending.none }

/-- `UPDATE_TIMEOUT(sample)` (R249). -/
def State.updateTimeout (s : State) (sample : Word32) : State :=
  let a := nextAverage s.estAvg sample
  { s with estAvg := BitVec.ofNat 32 a, sess := { s.sess with timeoutMs := nextTimeout s.inst a } }

/-- The stamps of `BOOKKEEP` (R248): last-response time, processed, received count. -/
def Pending.stamp (p : Pending) (now : Word32) : Pending :=
  { p with tLast := now, processed := true, received := p.received + 1 }

/-- `BOOKKEEP(f)` (R248). -/
def State.bookkeep (s : State) : State :=
  let p := s.pend.stamp s.clock
  let s1 := { s with pend := p }
  let s2 := if p.received == 1 && s.sess.adaptive then s1.updateTimeout (elapsedSince s.clock p.tStart) else s1
  if targetReached p then s2.closeOut else s2

/-- Step 3 of `PROCESS_CAN_FRAME` (R241): outside monitor mode and with a request outstanding. -/
def State.bookkeepIfDue (s : State) : State :=
  if !s.sess.monitor && s.pend.valid then s.bookkeep else s

/-- The pending request a PID request arms (R215). -/
def armedRequest (service : Byte) (pid : BitVec 16) (expected : Byte) (now : Word32) : Pending :=
  { valid := true, service := service, pid := pid, tStart := now, tLast := now, received := 0
    expected := expected, processed := false }

/-! ## `SEND` (R131, R139) -/

/-- The result codes of R286. -/
def eInvalidBus : Int := -1
def eNotEnabled : Int := -2
def eListenOnly : Int := -3
def eQueueFull : Int := -4
def eEmpty : Int := -5

/-- The frame at the tail of `TXQ[b]`. -/
def State.enqTx (s : State) (b : BusIx) (f : CanFrame) : State :=
  s.setBus b { s.bus b with txq := (s.bus b).txq ++ [f] }

/-- A frame lost at a full `TXQ[b]`: the counter (modulo 2^32, R18) and the error. -/
def State.dropTx (s : State) (b : BusIx) : State :=
  (s.setBus b { s.bus b with txOverflow := (s.bus b).txOverflow + 1 }).raiseError (.queueFull b) none

/-- A `SEND` that has passed its checks looks at the queue: it completes, gives up, or (none) holds. -/
def sendLook (b : BusIx) (f : CanFrame) (s : State) : Option (Int × State) :=
  if (s.bus b).txq.length < s.inst.txqDepth then some (0, s.enqTx b f)
  else if s.draws.giveUp then some (eQueueFull, s.dropTx b)
  else none

/-- `SEND(b, f)` up to its result: the class (a) checks in order (R288), then the queue. -/
def sendStart (b : BusIx) (f : CanFrame) (s : State) : Option (Int × State) :=
  if !s.validBus b then some (eInvalidBus, s.raiseError (.invalidBus b) none)
  else if !(s.bus b).cfg.enabled then some (eNotEnabled, s.raiseError (.notEnabled b) none)
  else if (s.bus b).cfg.listenOnly then some (eListenOnly, s.raiseError (.listenOnly b) none)
  else sendLook b f s

/-- The receive task of `b` goes to another phase (R163). -/
def State.setRxTask (s : State) (b : BusIx) (p : RxPhase) : State := s.setBus b { s.bus b with rxTask := p }

/-- The frame `f` goes to the other protocol adapters, and the receive task is done with it (R163). -/
def State.deliver (s : State) (b : BusIx) (f : CanFrame) : State :=
  { s.setRxTask b .idle with adapterOut := s.adapterOut ++ [(b, f)] }

/-- What follows `HANDLE_CAN_FRAME(f)` for its caller. -/
def State.frameDone (s : State) (caller : FrameCaller) (f : CanFrame) : State :=
  match caller with
  | .direct => s
  | .rxTask b => s.deliver b f

/-- The rest of the operation that called `SEND`, with its result `r`. -/
def finishSend (k : SendCont) (r : Int) (s : State) : State :=
  match k with
  | .client => s.answer (.code r)
  | .bridge => s.answer (.bool (0 ≤ r))
  | .rxBridge b f => s.setRxTask b (.emulating f)
  | .pid service pid expected => { s with pend := armedRequest service pid expected s.clock }
  | .flow => s
  | .frame caller f line => (s.emit line).bookkeepIfDue.frameDone caller f

/-- The operation holds: it is remembered where its agent stands (R139). Nothing it has not done yet is seen before it
completes; the text line of a frame whose flow control holds is part of the rest (DESIGN CHOICE, assumption 26). -/
def holdSend (b : BusIx) (f : CanFrame) (k : SendCont) (s : State) : State :=
  match k with
  | .rxBridge own g => s.setRxTask own (.forwarding b g)
  | .frame (.rxTask own) g line => s.setRxTask own (.answering b f g line)
  | .client | .bridge | .pid _ _ _ | .flow | .frame .direct _ _ => { s with held := s.held ++ [.send b f k] }

/-- `SEND(b, f)` and the rest of its caller, or a hold. -/
def sendThen (b : BusIx) (f : CanFrame) (k : SendCont) (s : State) : Result :=
  onTransport s
    (match sendStart b f s with
    | some (r, s') => .next (finishSend k r s')
    | none => .next (holdSend b f k s))

/-! ## `RECEIVE` (R132, R139) -/

/-- A `RECEIVE` that has passed its check looks at the queue: a frame with the count after the removal, a give-up
(not logged), or (none) a hold. -/
def receiveLook (b : BusIx) (s : State) : Option (Option CanFrame × Int × State) :=
  match (s.bus b).rxq with
  | f :: rest => some (some f, rest.length, s.setBus b { s.bus b with rxq := rest })
  | [] => if s.draws.giveUp then some (none, eEmpty, s) else none

/-! ## Held operations (R139) -/

/-- Whether `ELMTASK` is holding: the only operation in which it waits is a PID request (R7, R215). -/
def Held.isElm : Held → Bool
  | .send _ _ (.pid _ _ _) => true
  | .send _ _ _ => false
  | .receive _ => false

def State.elmHolding (s : State) : Bool := s.held.any Held.isElm

/-- The `k`-th held operation looks again: it completes, gives up, or goes on holding. The class (a) checks are not
repeated (R131). -/
def resumeHeld (k : Nat) (s : State) : Result :=
  onTransport s
    (match s.held[k]? with
    | none => .next s
    | some (.send b f c) =>
      match sendLook b f s with
      | some (r, s') => .next (finishSend c r { s' with held := s'.held.eraseIdx k })
      | none => .next s
    | some (.receive b) =>
      match receiveLook b s with
      | some (f, r, s') => .next (({ s' with held := s'.held.eraseIdx k } : State).answer (.received r f))
      | none => .next s)

/-! ## Frames for the emulator (R240, R241) -/

/-- `PROCESS_CAN_FRAME(f)` (R241) and the rest of its caller. The text line and a closing prompt go to `HOST_OUT` in
one transition, so the bytes of the operation are contiguous (R297, R326, U14): where the flow control holds, the line,
formatted when the frame was accepted, comes when it completes (DESIGN CHOICE, assumption 26). -/
def processFrame (caller : FrameCaller) (f : CanFrame) (s : State) : Result :=
  let line := formatFrame s.inst s.sess s.draws.wideId f
  if isFirstMarker f && !s.sess.monitor then
    sendThen s.inst.elmBus (flowFrame f.id s.sess.extended) (.frame caller f line) s
  else .next ((s.emit line).bookkeepIfDue.frameDone caller f)

/-- `HANDLE_CAN_FRAME(f)` (R240) and the rest of its caller. -/
def handleFrame (caller : FrameCaller) (f : CanFrame) (s : State) : Result :=
  onElm s
    (if !s.sess.monitor && !inRespRange f.id s.sess.extended then .next (s.frameDone caller f)
    else if !s.draws.lockOk then .next ((s.raiseError .lockTimeout none).frameDone caller f)
    else processFrame caller f s)

/-- `HANDLE_BRIDGE(bus, f)` (R162): `done` receives whether the frame was forwarded when no `SEND` is made, `k` is
the rest when one is. -/
def bridgeFrame (bus : BusIx) (f : CanFrame) (k : SendCont) (done : State → Bool → State) (s : State) : Result :=
  onTransport s
    (if !s.draws.lockOk then .next (done (s.raiseError .lockTimeout none) false)
    else match bridgeOther s.bridge bus with
      | none => .next (done s false)
      | some other => sendThen other f k s)

end Sys2Proof.Machine
end

