-- ==== Sys2Proof/Machine/BridgeTask.lean ====
section
/-! DEFINITION. The bridge and the receive task (spec/43_bridge.md). -/

namespace Sys2Proof.Machine

/-- `SET_BRIDGE(bus1, bus2)` (R160): the indices are not validated; not persisted. -/
def execSetBridge (bus1 bus2 : BusIx) (s : State) : Result :=
  onTransport s
    (if !s.draws.lockOk then .next (s.raiseError .lockTimeout none)
    else .next { s with bridge := { a := bus1, b := bus2 } })

/-- `HANDLE_BRIDGE(bus, f)` (R162) on the API: the caller gets whether the frame was forwarded. -/
def execHandleBridge (bus : BusIx) (frame : CanFrame) (s : State) : Result :=
  bridgeFrame bus frame .bridge (fun t fwd => t.answer (.bool fwd)) s

/-- The task's look at its receive queue (R132, R163): a frame starts the fan-out, a give-up leaves it idle. -/
def rxTaskReceive (bus : BusIx) (s : State) : Result :=
  match receiveLook bus s with
  | some (some f, _, s') => .next (s'.setRxTask bus (.bridging f))
  | some (none, _, s') => .next (s'.setRxTask bus .idle)
  | none => .next (s.setRxTask bus .receiving)

/-- `RX_TASK_STEP(bus)` (R163, R58): the next transition of `RXTASK[bus]`: `RECEIVE`, then `HANDLE_BRIDGE` with its
result unused, then `HANDLE_CAN_FRAME` and the delivery to the other adapters. A task that holds looks again. -/
def execRxTaskStep (bus : BusIx) (s : State) : Result :=
  onTransport s
    (match (s.bus bus).rxTask with
    | .idle => if s.validBus bus then rxTaskReceive bus s else .next (s.raiseError (.invalidBus bus) none)
    | .receiving => rxTaskReceive bus s
    | .bridging f => bridgeFrame bus f (.rxBridge bus f) (fun t _ => t.setRxTask bus (.emulating f)) s
    | .forwarding other f =>
      match sendLook other f s with
      | some (r, s') => .next (finishSend (.rxBridge bus f) r s')
      | none => .next s
    | .emulating f => handleFrame (.rxTask bus) f s
    | .answering b fc f line =>
      match sendLook b fc s with
      | some (r, s') => .next (finishSend (.frame (.rxTask bus) f line) r s')
      | none => .next s)

end Sys2Proof.Machine
end

