-- ==== Sys2Proof/Machine/ElmCommands.lean ====
section
/-! DEFINITION. The emulator's host commands (spec/45_elm_commands.md). -/

namespace Sys2Proof.Machine

/-! ## The reply of an AT command (R193, R194) -/

/-- A well-formed AT command: `sess` becomes `sess'`, and the reply is `info` and the OK terminator in the linefeed
form in force after the effect. -/
def atReply (sess' : ElmSession) (info : Bytes) (s : State) : Result :=
  onElm s (.next (({ s with sess := sess' } : State).emit (info ++ okTerm sess'.linefeed)))

/-- `ATDESC` (R195). -/
def execAtdesc (s : State) : Result := atReply s.sess s.inst.strAtdesc s

/-- `ATSP` (R196): the addressing only; neither the header nor a bitrate. -/
def execAtsp (d : Protocol) (s : State) : Result := atReply { s.sess with extended := protocolExtended d } [] s

/-- `ATAT` (R197). -/
def execAtat (on : Bool) (s : State) : Result := atReply { s.sess with adaptive := on } [] s

/-- `ATST` (R198): units of 4 ms, not clamped. -/
def execAtst (hh : Byte) (s : State) : Result := atReply { s.sess with timeoutMs := hh.setWidth 32 * 4 } [] s

/-- `ATDP` and `ATDPN` (R199). -/
def execAtdp (numeric : Bool) (s : State) : Result :=
  atReply s.sess (addressingText (if numeric then s.inst.strAtdpn else s.inst.strAtdp) s.sess.extended) s

/-- `ATPC` (R200): no effect but the reply. -/
def execAtpc (s : State) : Result := atReply s.sess [] s

/-- `ATRV` (R201). -/
def execAtrv (s : State) : Result := atReply s.sess s.inst.strAtrv s

/-- `AT@1` (R202). -/
def execAt1 (s : State) : Result := atReply s.sess s.inst.strAt1 s

/-- `ATSH` (R203): the header only. -/
def execAtsh (h : BitVec 29) (s : State) : Result := atReply { s.sess with headerId := h } [] s

/-- `ATMA` (R204). -/
def execAtma (on : Bool) (s : State) : Result := atReply { s.sess with monitor := on } [] s

/-- `ATE` (R205). -/
def execAte (on : Bool) (s : State) : Result := atReply { s.sess with echo := on } [] s

/-- `ATM` (R206). -/
def execAtm (on : Bool) (s : State) : Result := atReply { s.sess with memory := on } [] s

/-- `ATL` (R207). -/
def execAtl (on : Bool) (s : State) : Result := atReply { s.sess with linefeed := on } [] s

/-- `ATS` (R208). -/
def execAts (on : Bool) (s : State) : Result := atReply { s.sess with whitespace := on } [] s

/-- `ATH` (R209). -/
def execAth (on : Bool) (s : State) : Result := atReply { s.sess with headers := on } [] s

/-- `ATD` (R210). -/
def execAtd (on : Bool) (s : State) : Result := atReply { s.sess with dlcDisplay := on } [] s

/-- `ATZ` (R211): every session field, and nothing else. -/
def execAtz (s : State) : Result := atReply s.inst.elmDefaults [] s

/-- `ATI` (R212). -/
def execAti (s : State) : Result := atReply s.sess s.inst.strAti s

/-! ## Lines that are no command (R213, R214, R216) -/

/-- The reply to an unknown or malformed AT line, by the parameter `UNKNOWN_AT_REPLY` (R213). -/
def unknownReply (s : State) : Bytes :=
  match s.inst.unknownAtReply with
  | .okTerminator => okTerm s.sess.linefeed
  | .question => errReplyText s.inst s.sess.linefeed
  | .none => []

/-- `UNKNOWN_AT(u)` (R213). -/
def execUnknownAt (u : Bytes) (s : State) : Result :=
  onElm s (.next ((s.raiseError (.unknownAt u) none).emit (unknownReply s)))

/-- `MALFORMED_AT(u)` (R214). -/
def execMalformedAt (u : Bytes) (s : State) : Result :=
  onElm s (.next ((s.raiseError (.malformedAt u) none).emit (unknownReply s)))

/-- `INVALID_LINE(u)` (R216). -/
def execInvalidLine (u : Bytes) (s : State) : Result :=
  onElm s (.next ((s.raiseError (.badCommand u) none).emit (errReplyText s.inst s.sess.linefeed)))

/-! ## The PID request (R215, R218) -/

/-- `PID_REQUEST` with its decoded operands: refused while a request is outstanding (U13) and for a header that fits
no standard frame (U15); the request is armed whatever `SEND` answers (D23). -/
def pidRequest (data : Payload) (mode : Byte) (pid : BitVec 16) (expected : Byte) (s : State) : Result :=
  onElm s
    (if s.pend.valid then .refused .requestOutstanding
    else if !s.sess.extended && 0x7FF < s.sess.headerId.toNat then .refused .headerNotStandard
    else sendThen s.inst.elmBus (requestFrame s.sess data) (.pid mode pid expected) s)

/-- `PID4` (R78, R215). -/
def execPid4 (mode pid : Byte) (s : State) : Result :=
  pidRequest (pidPayload1 mode pid) mode (pid.setWidth 16) 0 s

/-- `PID5` (R78, R215). -/
def execPid5 (mode pid : Byte) (expected : BitVec 4) (s : State) : Result :=
  pidRequest (pidPayload1 mode pid) mode (pid.setWidth 16) (expected.setWidth 8) s

/-- `PID6` (R78, R215). -/
def execPid6 (mode : Byte) (pid : BitVec 16) (s : State) : Result :=
  pidRequest (pidPayload2 mode pid) mode pid 0 s

/-- `PID7` (R78, R215). -/
def execPid7 (mode : Byte) (pid : BitVec 16) (expected : BitVec 4) (s : State) : Result :=
  pidRequest (pidPayload2 mode pid) mode pid (expected.setWidth 8) s

/-! ## From bytes to a command (R190 to R192) -/

/-- The meaning of a non-empty line's command. -/
def execCommand (c : LineCmd) (s : State) : Result :=
  match c with
  | .atdesc => execAtdesc s
  | .atsp d => execAtsp d s
  | .atat on => execAtat on s
  | .atst hh => execAtst hh s
  | .atdp numeric => execAtdp numeric s
  | .atpc => execAtpc s
  | .atrv => execAtrv s
  | .at1 => execAt1 s
  | .atsh h => execAtsh h s
  | .atma on => execAtma on s
  | .ate on => execAte on s
  | .atm on => execAtm on s
  | .atl on => execAtl on s
  | .ats on => execAts on s
  | .ath on => execAth on s
  | .atd on => execAtd on s
  | .atz => execAtz s
  | .ati => execAti s
  | .pid4 mode pid => execPid4 mode pid s
  | .pid5 mode pid expected => execPid5 mode pid expected s
  | .pid6 mode pid => execPid6 mode pid s
  | .pid7 mode pid expected => execPid7 mode pid expected s
  | .unknownAt u => execUnknownAt u s
  | .malformedAt u => execMalformedAt u s
  | .invalidLine u => execInvalidLine u s

/-- `REPEAT` (R192): executes `last_cmd`, which it leaves as it is; with nothing to repeat, nothing happens. -/
def execRepeatLine (s : State) : Result :=
  onElm s (if s.lastCmd.isEmpty then .next s else execCommand (classify s.lastCmd) s)

/-- `DISPATCH_LINE(line)` (R191): every non-empty line replaces `last_cmd` before it is executed. -/
def execDispatchLine (line : Bytes) (s : State) : Result :=
  onElm s
    (if line.isEmpty then execRepeatLine s else execCommand (classify line) { s with lastCmd := line })

/-- What echo writes for one host byte (R217): a draw while echo is on, nothing while it is off. -/
def State.echoed (s : State) : State := if s.sess.echo then s.emit s.draws.echo else s

/-- `HOST_BYTE(c)` (R190): CR and LF each end a line, any other byte joins it; a full line refuses (U4). -/
def execHostByte (c : Byte) (s : State) : Result :=
  onElm s
    (if isTerminator c then execDispatchLine s.lineBuf { s.echoed with lineBuf := [] }
    else if s.lineBuf.length < s.inst.lineMax then .next { s.echoed with lineBuf := s.lineBuf ++ [c] }
    else .refused .lineTooLong)

end Sys2Proof.Machine
end

