-- ==== Sys2Proof/Machine/ElmResponse.lean ====
section
/-! DEFINITION. The emulator's responses, flow control and timeout (spec/46_elm_response.md), and the reset of the
block (spec/70_reset_and_hazards.md). -/

namespace Sys2Proof.Machine

/-- `HANDLE_CAN_FRAME(f)` (R240). -/
def execHandleCanFrame (frame : CanFrame) (s : State) : Result := handleFrame .direct frame s

/-- `PROCESS_CAN_FRAME(f)` (R241). -/
def execProcessCanFrame (frame : CanFrame) (s : State) : Result := onElm s (processFrame .direct frame s)

/-- `FORMAT_FRAME_OUTPUT(f)` (R242): the line is the result; no state is written. -/
def execFormatFrameOutput (frame : CanFrame) (s : State) : Result :=
  onElm s (.next (s.answer (.text (formatFrame s.inst s.sess s.draws.wideId frame))))

/-- `SEND_FLOW_CONTROL(f)` (R247): the result of `SEND` is not used. -/
def execSendFlowControl (frame : CanFrame) (s : State) : Result :=
  onElm s (sendThen s.inst.elmBus (flowFrame frame.id s.sess.extended) .flow s)

/-- `UPDATE_TIMEOUT(sample)` (R249). -/
def execUpdateTimeout (sample : Word32) (s : State) : Result := onElm s (.next (s.updateTimeout sample))

/-- The no-response branch of R250: the estimator once, guarded by the processed flag, then the close-out. -/
def State.closeUnanswered (s : State) : State :=
  if s.pend.processed then s.closeOut
  else
    let s1 := s.updateTimeout (elapsedSince s.clock s.pend.tStart)
    ({ s1 with pend := { s1.pend with processed := true } } : State).closeOut

/-- `CHECK_FOR_TIMEOUT` (R250). -/
def execCheckForTimeout (s : State) : Result :=
  onElm s
    (if s.sess.monitor || !s.pend.valid then .next s
    else if !s.draws.lockOk then .next (s.raiseError .lockTimeout none)
    else if s.pend.received != 0 then
      .next (if graceOver s.pend s.clock then s.closeOut else s)
    else .next (if waitOver s.pend s.sess.timeoutMs s.clock then s.closeUnanswered else s))

/-- `CLOSE_OUT` (R251). -/
def execCloseOut (s : State) : Result := onElm s (.next s.closeOut)

/-- `RESET` (R310). -/
def execReset (s : State) : Result := .next s.resetSequence

end Sys2Proof.Machine
end

