-- ==== Sys2Proof/Machine/FsmEngine.lean ====
section
/-! DEFINITION. The State Machine Engine (spec/44_fsm_engine.md). -/

namespace Sys2Proof.Machine

/-- The handler registered for an identity (R175). -/
def fsmLookup (reg : FsmRegistry) (id : Nat) : Option FsmHandler := (reg.find? fun p => p.1 == id).map Prod.snd

/-- `tick(byte)` (R176): the next identity, the side output, the handler state after it. -/
def fsmTick (h : FsmHandler) (user : Nat) (byte : Byte) : Nat × Nat × Nat :=
  match h.tickRows.find? fun r => r.user == user && r.byte == byte with
  | some r => (r.next, r.out, r.userAfter)
  | none => (h.tickNext, h.tickOut, user)

/-- `enter()` (R176): the next identity and the handler state after it. -/
def fsmEnter (h : FsmHandler) (user : Nat) : Nat × Nat :=
  match h.enterRows.find? fun r => r.user == user with
  | some r => (r.next, r.userAfter)
  | none => (h.enterNext, user)

/-- `exit()` (R176): the handler state after it. -/
def fsmExit (h : FsmHandler) (user : Nat) : Nat :=
  match h.exitRows.find? fun r => r.user == user with
  | some r => r.userAfter
  | none => user

/-- How the loop of R177 ends: `stable current user`, `unknown current target`, or `hang` when its fuel is spent. -/
inductive Cascade where
  | stable (current user : Nat)
  | unknown (current target : Nat)
  | hang
  deriving DecidableEq, Repr, Inhabited

/-- The loop of R177, under fuel (R179). The target is looked up before `exit()` (R178). -/
def cascade (reg : FsmRegistry) : (fuel current next user : Nat) → Cascade
  | fuel, current, next, user =>
    if next == current then .stable current user
    else match fsmLookup reg next with
      | none => .unknown current next
      | some h =>
        match fuel with
        | 0 => .hang
        | fuel + 1 =>
          let left := match fsmLookup reg current with
            | some old => fsmExit old user
            | none => user
          let entered := fsmEnter h left
          cascade reg fuel next entered.1 entered.2

/-- The rows in which a registry can set the handler state. -/
def fsmRows (reg : FsmRegistry) : Nat :=
  (reg.map fun p => p.2.tickRows.length + p.2.enterRows.length + p.2.exitRows.length).sum

/-- Fuel beyond which a cascade repeats itself: one iteration for each registered identity and each value the
handler state can have (the one it starts with, and one for each row). -/
def cascadeFuel (reg : FsmRegistry) : Nat := reg.length * (fsmRows reg + 1) + 1

/-- What a step of one engine instance gives: the instance after it, the side output, and the unregistered target if
the step met one; or a fault. -/
inductive EngineOutcome where
  | done (e : FsmEngine) (out : Nat) (unknown : Option Nat)
  | fault (f : Fault)
  deriving DecidableEq, Repr, Inhabited

/-- `FSM_STEP(byte)` on one engine instance (R177, R178, R179), which reads nothing else (R180). An unknown target
leaves the current identity, leaves the handler state to the draw `free`, and puts the instance at fault (U10). -/
def engineStep (p : FsmParams) (e : FsmEngine) (byte : Byte) (free : Nat) : EngineOutcome :=
  if e.faulted then .fault .fsmInstance
  else match fsmLookup p.registry e.current with
    | none => .fault .fsmInstance
    | some h =>
      let t := fsmTick h e.user byte
      match cascade p.registry (cascadeFuel p.registry) e.current t.1 t.2.2 with
      | .stable current user => .done { e with current := current, user := user } t.2.1 none
      | .unknown current target => .done { current := current, user := free, faulted := true } t.2.1 (some target)
      | .hang => .fault .fsmHang

/-- `FSM_STEP(byte)` of the engine instance the byte is for (R177 to R180): the other instances are untouched; an unknown target
is logged, and the side output is returned all the same. -/
def execFsmStep (byte : EngineByte) (s : State) : Result :=
  match s.inst.engines[byte.engine]?, s.engines[byte.engine]? with
  | some p, some e =>
    match engineStep p e byte.byte s.draws.fsmUser with
    | .done e' out none =>
      .next (({ s with engines := s.engines.set byte.engine e' } : State).answer (.sideOutput out))
    | .done e' out (some target) =>
      .next (({ s with engines := s.engines.set byte.engine e' } : State).raiseError (.unknownState target)
        (some (.sideOutput out)))
    | .fault f => .fault f
  | _, _ => .refused .noEngine

end Sys2Proof.Machine
end

