-- ==== Sys2Proof/Machine/TransportConfig.lean ====
section
/-! DEFINITION. Transport Core, configuration operations (spec/41_transport_config.md). -/

namespace Sys2Proof.Machine

/-- `ENABLE(bus, bitrate)` (R101): an enabled bus is stopped and restarted; always persists. -/
def execEnable (bus : BusIx) (rate : Word32) (s : State) : Result :=
  onValidBus s bus
    (let x := s.bus bus
    let r := clampRate s.inst rate
    let x1 := (if x.cfg.enabled then x.ctrlStop else x).ctrlStart r
    .next (s.setBus bus { x1 with cfg := { x1.cfg with enabled := true, bitrate := r } }).persist)

/-- `DISABLE(bus)` (R102): persists only when the stored flag changes. -/
def execDisable (bus : BusIx) (s : State) : Result :=
  onValidBus s bus
    (let x := s.bus bus
    let x1 := if x.ctrlRunning then x.ctrlStop else x
    if x.cfg.enabled then .next (s.setBus bus { x1 with cfg := { x1.cfg with enabled := false } }).persist
    else .next (s.setBus bus x1))

/-- `SET_BITRATE(bus, rate)` (R103): restarts an enabled bus; persists only when the stored rate changes. -/
def execSetBitrate (bus : BusIx) (rate : Word32) (s : State) : Result :=
  onValidBus s bus
    (let x := s.bus bus
    let r := clampRate s.inst rate
    let x1 := if x.cfg.enabled then x.ctrlStop.ctrlStart r else x
    if x.cfg.bitrate != r then .next (s.setBus bus { x1 with cfg := { x1.cfg with bitrate := r } }).persist
    else .next (s.setBus bus x1))

/-- `SET_LISTENONLY(bus, flag)` (R104): updates and persists only on a change; no controller command. -/
def execSetListenOnly (bus : BusIx) (flag : Bool) (s : State) : Result :=
  onValidBus s bus
    (let x := s.bus bus
    if x.cfg.listenOnly != flag then
      .next (s.setBus bus { x with cfg := { x.cfg with listenOnly := flag } }).persist
    else .next s)

/-- `IS_ENABLED(bus)` (R105). -/
def execIsEnabled (bus : BusIx) (s : State) : Result :=
  busGetter s bus (.bool false) (.bool (s.bus bus).cfg.enabled)

/-- `GET_BITRATE(bus)` (R106). -/
def execGetBitrate (bus : BusIx) (s : State) : Result :=
  busGetter s bus (.word 0) (.word (s.bus bus).cfg.bitrate)

/-- `IS_LISTENONLY(bus)` (R107). -/
def execIsListenOnly (bus : BusIx) (s : State) : Result :=
  busGetter s bus (.bool false) (.bool (s.bus bus).cfg.listenOnly)

/-- `GET_NUM_BUSSES()` (R108). -/
def execGetNumBusses (s : State) : Result := onTransport s (.next (s.answer (.count s.numBusses)))

/-- A controller of a bus `b >= n` runs (U7). -/
def runningFrom (n : Nat) (buses : List Bus) : Bool := (buses.drop n).any Bus.ctrlRunning

/-- `SET_NUM_BUSSES(n)` (R109, U7). -/
def execSetNumBusses (n : Byte) (s : State) : Result :=
  onTransport s
    (if s.inst.maxBusses ≤ n.toNat || runningFrom n.toNat s.buses then .refused .busCount
    else if s.numBusses != n then .next ({ s with numBusses := n } : State).persist
    else .next s)

/-- `PERSIST` (R110). -/
def execPersist (s : State) : Result := onTransport s (.next s.persist)

/-- `LOAD_SETTINGS` (R111). -/
def execLoadSettings (s : State) : Result := onTransport s (.next s.loadSettings)

end Sys2Proof.Machine
end

