-- ==== Sys2Proof/Machine/TransportQueues.lean ====
section
/-! DEFINITION. Transport Core, queues and arbiter (spec/42_transport_queues.md). -/

namespace Sys2Proof.Machine

/-- A frame of bus `b` can be delivered exactly when its interrupt is registered and its controller runs (R290). -/
def Bus.delivers (x : Bus) : Bool := x.irqRegistered && x.ctrlRunning

/-- `RX_EVENT(b, f)` on a bus's state (R130): enqueue, or drop and count (modulo 2^32). -/
def Bus.rxEvent (depth : Nat) (f : CanFrame) (x : Bus) : Bus :=
  if x.rxq.length < depth then { x with rxq := x.rxq ++ [f] }
  else { x with rxOverflow := x.rxOverflow + 1 }

/-- `RX_EVENT(b, f)` (R130, R290, R291). A controller that is stopped, was never started or does not exist delivers
nothing (R294 (2)). -/
def execRxEvent (bus : BusIx) (frame : CanFrame) (s : State) : Result :=
  onTransport s
    (if (s.bus bus).delivers then .next (s.setBus bus ((s.bus bus).rxEvent s.inst.rxqDepth frame)) else .next s)

/-- `SEND(bus, f)` (R131). -/
def execSend (bus : BusIx) (frame : CanFrame) (s : State) : Result := sendThen bus frame .client s

/-- `RECEIVE(bus)` (R132). -/
def execReceive (bus : BusIx) (s : State) : Result :=
  onTransport s
    (if !s.validBus bus then .next (s.raiseError (.invalidBus bus) (some (.received eInvalidBus none)))
    else match receiveLook bus s with
      | some (f, r, s') => .next (s'.answer (.received r f))
      | none => .next { s with held := s.held ++ [.receive bus] })

/-- The buses in the order the arbiter visits them: at or after `arb_ptr`, then wrapping at `NUM_BUSSES` (R133). -/
def arbiterOrder (n p : Nat) : List Nat :=
  (List.range n).filter (fun b => p ≤ b) ++ (List.range n).filter (fun b => b < p)

/-- Bus `b` has a frame for the arbiter. -/
def State.txPending (s : State) (b : Nat) : Bool :=
  b < s.numBusses.toNat && !(s.bus (BitVec.ofNat 8 b)).txq.isEmpty

/-- The bus the arbiter serves: the drawn one if it has a frame (R133 corner case 2: the choice is open, D10), else
the first non-empty one in the visiting order. -/
def State.arbiterBus (s : State) : Option Nat :=
  match s.draws.txChoice with
  | some b =>
    if s.txPending b.toNat then some b.toNat
    else (arbiterOrder s.numBusses.toNat s.arbPtr.toNat).find? s.txPending
  | none => (arbiterOrder s.numBusses.toNat s.arbPtr.toNat).find? s.txPending

/-- Where `arb_ptr` stands after serving `b`: on `b` while it has frames, else on the next bus (R133). -/
def nextArbPtr (b n : Nat) (left : List CanFrame) : Byte :=
  if left.isEmpty then BitVec.ofNat 8 ((b + 1) % n) else BitVec.ofNat 8 b

/-- The head of `TXQ[b]` handed to controller `b`. -/
def State.transmit (s : State) (b : Nat) : State :=
  let x := s.bus (BitVec.ofNat 8 b)
  match x.txq with
  | f :: rest =>
    { s.setBus (BitVec.ofNat 8 b) { x with txq := rest, canOut := x.canOut ++ [f] } with
      arbPtr := nextArbPtr b s.numBusses.toNat rest }
  | [] => s

/-- `TX_STEP` (R133): one frame, or idle. -/
def execTxStep (s : State) : Result :=
  onTransport s
    (match s.arbiterBus with
    | some b => .next (s.transmit b)
    | none => .next s)

/-- `GET_RX_BUFFERED_FRAMES(bus)` (R134). -/
def execGetRxBufferedFrames (bus : BusIx) (s : State) : Result :=
  busGetter s bus (.word 0) (.word (BitVec.ofNat 32 (s.bus bus).rxq.length))

/-- `GET_TX_BUFFERED_FRAMES(bus)` (R135). -/
def execGetTxBufferedFrames (bus : BusIx) (s : State) : Result :=
  busGetter s bus (.word 0) (.word (BitVec.ofNat 32 (s.bus bus).txq.length))

/-- `GET_RX_OVERFLOW_COUNT(bus)` (R136). -/
def execGetRxOverflowCount (bus : BusIx) (s : State) : Result :=
  busGetter s bus (.word 0) (.word (s.bus bus).rxOverflow)

/-- `GET_TX_OVERFLOW_COUNT(bus)` (R137). -/
def execGetTxOverflowCount (bus : BusIx) (s : State) : Result :=
  busGetter s bus (.word 0) (.word (s.bus bus).txOverflow)

/-- `GET_STATISTICS(bus, &stats)` (R138): the record's content is a draw (U8). -/
def execGetStatistics (bus : BusIx) (s : State) : Result :=
  busGetter s bus (.stats false none) (.stats true (some s.draws.stats))

end Sys2Proof.Machine
end

