-- ==== Sys2Proof/Machine/Dispatch.lean ====
section
/-! DEFINITION. The meaning of every instruction: one arm per constructor of Instr. -/

namespace Sys2Proof.Machine

def exec (i : Instr) (s : State) : Host.Outcome State Fault Refusal :=
  match i with
  | .enable bus rate => Sys2Proof.Machine.execEnable bus rate s
  | .disable bus => Sys2Proof.Machine.execDisable bus s
  | .setBitrate bus rate => Sys2Proof.Machine.execSetBitrate bus rate s
  | .setListenOnly bus flag => Sys2Proof.Machine.execSetListenOnly bus flag s
  | .isEnabled bus => Sys2Proof.Machine.execIsEnabled bus s
  | .getBitrate bus => Sys2Proof.Machine.execGetBitrate bus s
  | .isListenOnly bus => Sys2Proof.Machine.execIsListenOnly bus s
  | .send bus frame => Sys2Proof.Machine.execSend bus frame s
  | .receive bus => Sys2Proof.Machine.execReceive bus s
  | .getRxBufferedFrames bus => Sys2Proof.Machine.execGetRxBufferedFrames bus s
  | .getTxBufferedFrames bus => Sys2Proof.Machine.execGetTxBufferedFrames bus s
  | .getRxOverflowCount bus => Sys2Proof.Machine.execGetRxOverflowCount bus s
  | .getTxOverflowCount bus => Sys2Proof.Machine.execGetTxOverflowCount bus s
  | .getNumBusses => Sys2Proof.Machine.execGetNumBusses s
  | .setNumBusses n => Sys2Proof.Machine.execSetNumBusses n s
  | .getStatistics bus => Sys2Proof.Machine.execGetStatistics bus s
  | .setBridge bus1 bus2 => Sys2Proof.Machine.execSetBridge bus1 bus2 s
  | .handleBridge bus frame => Sys2Proof.Machine.execHandleBridge bus frame s
  | .atdesc => Sys2Proof.Machine.execAtdesc s
  | .atsp d => Sys2Proof.Machine.execAtsp d s
  | .atat on => Sys2Proof.Machine.execAtat on s
  | .atst hh => Sys2Proof.Machine.execAtst hh s
  | .atdp numeric => Sys2Proof.Machine.execAtdp numeric s
  | .atpc => Sys2Proof.Machine.execAtpc s
  | .atrv => Sys2Proof.Machine.execAtrv s
  | .at1 => Sys2Proof.Machine.execAt1 s
  | .atsh h => Sys2Proof.Machine.execAtsh h s
  | .atma on => Sys2Proof.Machine.execAtma on s
  | .ate on => Sys2Proof.Machine.execAte on s
  | .atm on => Sys2Proof.Machine.execAtm on s
  | .atl on => Sys2Proof.Machine.execAtl on s
  | .ats on => Sys2Proof.Machine.execAts on s
  | .ath on => Sys2Proof.Machine.execAth on s
  | .atd on => Sys2Proof.Machine.execAtd on s
  | .atz => Sys2Proof.Machine.execAtz s
  | .ati => Sys2Proof.Machine.execAti s
  | .repeatLine => Sys2Proof.Machine.execRepeatLine s
  | .pid4 mode pid => Sys2Proof.Machine.execPid4 mode pid s
  | .pid5 mode pid expected => Sys2Proof.Machine.execPid5 mode pid expected s
  | .pid6 mode pid => Sys2Proof.Machine.execPid6 mode pid s
  | .pid7 mode pid expected => Sys2Proof.Machine.execPid7 mode pid expected s
  | .unknownAt u => Sys2Proof.Machine.execUnknownAt u s
  | .malformedAt u => Sys2Proof.Machine.execMalformedAt u s
  | .invalidLine u => Sys2Proof.Machine.execInvalidLine u s
  | .rxEvent bus frame => Sys2Proof.Machine.execRxEvent bus frame s
  | .txStep => Sys2Proof.Machine.execTxStep s
  | .rxTaskStep bus => Sys2Proof.Machine.execRxTaskStep bus s
  | .persist => Sys2Proof.Machine.execPersist s
  | .loadSettings => Sys2Proof.Machine.execLoadSettings s
  | .fsmStep byte => Sys2Proof.Machine.execFsmStep byte s
  | .hostByte c => Sys2Proof.Machine.execHostByte c s
  | .dispatchLine line => Sys2Proof.Machine.execDispatchLine line s
  | .handleCanFrame frame => Sys2Proof.Machine.execHandleCanFrame frame s
  | .processCanFrame frame => Sys2Proof.Machine.execProcessCanFrame frame s
  | .formatFrameOutput frame => Sys2Proof.Machine.execFormatFrameOutput frame s
  | .sendFlowControl frame => Sys2Proof.Machine.execSendFlowControl frame s
  | .updateTimeout sample => Sys2Proof.Machine.execUpdateTimeout sample s
  | .checkForTimeout => Sys2Proof.Machine.execCheckForTimeout s
  | .closeOut => Sys2Proof.Machine.execCloseOut s
  | .reset => Sys2Proof.Machine.execReset s

end Sys2Proof.Machine
end

