-- ==== Sys2Proof/Machine/Fetch.lean ====
section
/-! DEFINITION. What the next step runs: the schedule (R7), the environment's draws, the decoding of what an agent
presents at its port, and the placing of an encoded instruction where the next step takes it. -/

namespace Sys2Proof.Machine

/-- The next entry of the schedule: the first one State lists, or, when it lists none, a free one. -/
def State.nextStimulus (s : State) : Stimulus :=
  match s.script with
  | st :: _ => st
  | [] => Config.freeStimulus s.turn

/-- The state in which the scheduled agent acts: the schedule advanced, the draws those of this step, the clock on by
the time that passed (R293). -/
def State.beginStep (s : State) : State :=
  { s with
    script := s.script.tail
    turn := s.turn + 1
    draws := s.nextStimulus.draws
    clock := s.clock + s.nextStimulus.draws.elapsed }

/-- What a scheduled agent does: an operation, another look of a held one, or nothing the model has a transition
for. -/
inductive Fetched where
  | run (i : Instr)
  | resume (k : Nat)
  | refuse (r : Refusal)
  deriving DecidableEq, Repr, Inhabited

/-- An operation of `ELMTASK`, which takes no step while it holds (R139). -/
def onElmTask (s : State) (i : Instr) : Fetched := if s.elmHolding then .refuse .agentHolding else .run i

/-- The operation an agent starts (R7). DESIGN CHOICE (assumption 25): `CLIENT` stands for all the clients of port
`API`, so a command runs while another client's operation holds (R139); only `ELMTASK` and `RXTASK[b]`, which are one
task each, take no other step while they hold. -/
def fetch (a : Action) (s : State) : Fetched :=
  match a with
  | .api command =>
    match decode .api command with
    | .ok (i, _) => .run i
    | .error e => .refuse (.undecodable e)
  | .wire bus w dlc data =>
    match wireFrame w dlc data s.draws.pad with
    | .ok f => .run (.rxEvent bus f)
    | .error e => .refuse (.undecodable e)
  | .host c => onElmTask s (.hostByte c)
  | .poll => onElmTask s .checkForTimeout
  | .arbiter => .run .txStep
  | .rxTask bus => .run (.rxTaskStep bus)
  | .fsm k c => .run (.fsmStep ⟨k, c⟩)
  | .resume k => .resume k
  | .reset => .run .reset

/-- An opcode-table word placed where the next step takes its instruction: an API command as the schedule's next
entry; a host line in the line buffer with its CR as the next entry (R190). -/
def State.placeWord (s : State) (nbits w : Nat) : State :=
  match tableWordPort nbits w with
  | .api =>
    { s with script := { action := .api (tableWordBytes nbits w), draws := Config.plainDraws } :: s.script }
  | .hostIn =>
    { s with
      lineBuf := tableWordBytes nbits w
      script := { action := .host 0x0D, draws := Config.plainDraws } :: s.script }

end Sys2Proof.Machine
end

