-- ==== Sys2Proof/Machine/Step.lean ====
section
/-! DEFINITION. One step of the machine: the agent the schedule names takes one atomic transition (R7, R58). -/

namespace Sys2Proof.Machine

/-- One step. -/
def step (s : State) : Host.Outcome State Fault Refusal :=
  match fetch s.nextStimulus.action s.beginStep with
  | .run i => exec i s.beginStep
  | .resume k => resumeHeld k s.beginStep
  | .refuse r => .refused r

/-- `s` with the opcode-table word `w` where the next step takes its instruction. -/
def State.withFetchWord (s : State) (nbits w : Nat) : State := s.placeWord nbits w

end Sys2Proof.Machine
end

