-- ==== Sys2Proof/Machine/NvmLayout.lean ====
section
/-! DEFINITION. The packed layout R72 offers for the persisted record: `bus_count`, then six bytes for each bus. The
model stores the record as a structured value (R53); this is its byte form for a reader that needs one. -/

namespace Sys2Proof.Machine

/-- A bool as one byte, 0 or 1. -/
def boolByte (v : Bool) : Byte := if v then 1 else 0

/-- A bool read back; other byte values are no bool. -/
def byteBool (b : Byte) : Option Bool := if b == 0 then some false else if b == 1 then some true else none

/-- The six bytes of a bus's configuration, `bitrate` least significant byte first. -/
def packConfig (c : BusConfig) : Bytes := boolByte c.enabled :: boolByte c.listenOnly :: le32 c.bitrate

/-- The record's `1 + 6 * MAX_BUSSES` bytes. -/
def packRecord (r : NvmRecord) : Bytes := r.busCount :: r.busConfig.flatMap packConfig

/-- `n` configurations read back, with nothing left over. -/
def unpackConfigs : Nat → Bytes → Option (List BusConfig)
  | 0, [] => some []
  | 0, _ :: _ => none
  | n + 1, e :: l :: r0 :: r1 :: r2 :: r3 :: rest =>
    match byteBool e, byteBool l, unpackConfigs n rest with
    | some e, some l, some cs =>
      some ({ enabled := e, listenOnly := l, bitrate := ofLe32 r0 r1 r2 r3 } :: cs)
    | _, _, _ => none
  | _ + 1, _ => none

/-- The readable record of an instance with `n = MAX_BUSSES` whose bytes these are. -/
def unpackRecord (n : Nat) : Bytes → Option NvmRecord
  | [] => none
  | count :: rest => (unpackConfigs n rest).map fun cs => { valid := true, busCount := count, busConfig := cs }

end Sys2Proof.Machine
end

