-- ==== Sys2Proof/Safety.lean ====
section
/-! DEFINITION. What counts as a sound state and a safe run, in the terms the statements use. -/

namespace Sys2Proof.Machine

/-- What holds of each bus: the queues fit their depths (R16, R17), a running controller is registered, enabled and
at the stored rate (R14, R15). -/
structure Bus.Inv (p : Params) (x : Bus) : Prop where
  rxq_fits : x.rxq.length ≤ p.rxqDepth
  txq_fits : x.txq.length ≤ p.txqDepth
  running_registered : x.ctrlRunning = true → x.irqRegistered = true
  running_enabled : x.ctrlRunning = true → x.cfg.enabled = true
  running_rate : x.ctrlRunning = true → x.ctrlRate = x.cfg.bitrate

/-- How many requests of `ELMTASK` are holding before they are armed. -/
def State.elmHolds (s : State) : Nat := (s.held.filter Held.isElm).length

/-- What holds of every state the machine reaches from a sound one. -/
structure State.Inv (s : State) : Prop where
  /-- The parameters meet their constraints (R5, D4). -/
  params_ok : s.inst.ok = true
  /-- The bus array has `MAX_BUSSES` entries (R13). -/
  buses_length : s.buses.length = s.inst.maxBusses
  /-- `NUM_BUSSES < MAX_BUSSES` (R12). -/
  count_below : s.numBusses.toNat < s.inst.maxBusses
  /-- The persisted array has `MAX_BUSSES` entries (R28). -/
  nvm_length : s.nvm.busConfig.length = s.inst.maxBusses
  /-- The line buffer and the remembered command have at most `LINE_MAX` bytes (R24). -/
  line_fits : s.lineBuf.length ≤ s.inst.lineMax
  last_fits : s.lastCmd.length ≤ s.inst.lineMax
  /-- A cleared pending request has every field zero (R38, R251). -/
  pend_cleared : s.pend.valid = false → s.pend = Pending.none
  /-- At most one request is outstanding, one that still holds included (R23). -/
  one_request : s.elmHolds + (if s.pend.valid then 1 else 0) ≤ 1
  /-- There are as many engine instances as were constructed (R175, R180). -/
  engines_length : s.engines.length = s.inst.engines.length
  /-- Each engine instance's current identity is registered (R178: the last known-good state). -/
  engines_registered : ∀ (k : Nat) (p : FsmParams) (e : FsmEngine), s.inst.engines[k]? = some p →
    s.engines[k]? = some e → FsmRegistry.has p.registry e.current = true
  /-- Every bus is sound. -/
  buses_inv : ∀ x ∈ s.buses, x.Inv s.inst

/-- The outcome is a fault. -/
def isFault : Result → Bool
  | .next _ => false
  | .fault _ => true
  | .refused _ => false

/-- A safe run of `n` steps from `s`: it ends in no fault. A refusal makes no claim (spec/93_implementation_defined.md
`refuse`). -/
def SafeRun (n : Nat) (s : State) : Prop := isFault (Host.Core.run Sys2Proof.core n s) = false

/-- The next state of an outcome. -/
def nextOf : Result → Option State
  | .next s => some s
  | .fault _ => none
  | .refused _ => none

/-- `t` differs from `s` in bus `b`'s record, the persisted record and the log alone: the frame of the configuration
operations. -/
def SameButBus (s t : State) (b : BusIx) : Prop :=
  t = { s with buses := t.buses, nvm := t.nvm, log := t.log } ∧ t.buses.length = s.buses.length ∧
    ∀ c, c ≠ b → t.bus c = s.bus c

/-- A queue that changed only as a first-in first-out queue can: unchanged, one frame at its tail, or its head gone
(R16, R17). -/
def FifoMove (q q' : List CanFrame) : Prop := q' = q ∨ (∃ f, q' = q ++ [f]) ∨ ∃ f, q = f :: q'

/-- What `PERSIST` leaves when it runs last in an operation (R110): `before` is the state it starts from, `t` the
operation's result, whose count and configurations are the ones written. -/
def PersistLeaves (before t : State) : Prop :=
  t.nvm =
      (if before.draws.lockOk && before.draws.persistOk then
        { valid := true, busCount := t.numBusses, busConfig := t.cfgs }
      else before.nvm) ∧
    t.log =
      before.log ++
        (if !before.draws.lockOk then [.lockTimeout] else if !before.draws.persistOk then [.persistFail] else [])

/-- Nothing was written to the persisted record and nothing was logged. -/
def NotPersisted (s t : State) : Prop := t.nvm = s.nvm ∧ t.log = s.log

/-- Bus `b` takes a frame now: `SEND` meets no class (a) error and its queue has room (R131). -/
def State.accepts (s : State) (b : BusIx) : Prop :=
  b.toNat < s.numBusses.toNat ∧ (s.bus b).cfg.enabled = true ∧ (s.bus b).cfg.listenOnly = false ∧
    (s.bus b).txq.length < s.inst.txqDepth

/-- `SEND` to bus `b` meets no class (a) error (R131). -/
def State.sendPasses (s : State) (b : BusIx) : Prop :=
  b.toNat < s.numBusses.toNat ∧ (s.bus b).cfg.enabled = true ∧ (s.bus b).cfg.listenOnly = false

/-- A `SEND` of `f` that has passed its checks ends with result `r`, leaving `u` (R131, R139): the frame is queued, or
it is lost at a full queue, counted and logged. -/
def State.sendSettles (s : State) (b : BusIx) (f : CanFrame) (r : Int) (u : State) : Prop :=
  ((s.bus b).txq.length < s.inst.txqDepth ∧ r = 0 ∧
      u = s.setBus b { s.bus b with txq := (s.bus b).txq ++ [f] }) ∨
    (s.inst.txqDepth ≤ (s.bus b).txq.length ∧ s.draws.giveUp = true ∧ r = -4 ∧
      u =
        { s.setBus b { s.bus b with txOverflow := (s.bus b).txOverflow + 1 } with
          log := s.log ++ [.queueFull b] })

/-- A `SEND` that has passed its checks finds no room and does not give up (R139). -/
def State.sendWaits (s : State) (b : BusIx) : Prop :=
  s.inst.txqDepth ≤ (s.bus b).txq.length ∧ s.draws.giveUp = false

/-- A `SEND` of `f` to bus `b` ends at once with result `r`, leaving `u` (R131, R286 to R288): the first class (a)
error that applies, logged and with no other effect, or what the queue answers. -/
def State.sendResults (s : State) (b : BusIx) (f : CanFrame) (r : Int) (u : State) : Prop :=
  (s.numBusses.toNat ≤ b.toNat ∧ r = -1 ∧ u = { s with log := s.log ++ [.invalidBus b] }) ∨
    (b.toNat < s.numBusses.toNat ∧ (s.bus b).cfg.enabled = false ∧ r = -2 ∧
      u = { s with log := s.log ++ [.notEnabled b] }) ∨
    (b.toNat < s.numBusses.toNat ∧ (s.bus b).cfg.enabled = true ∧ (s.bus b).cfg.listenOnly = true ∧ r = -3 ∧
      u = { s with log := s.log ++ [.listenOnly b] }) ∨
    (s.sendPasses b ∧ s.sendSettles b f r u)

/-- A chain of `n` transitions of the loop of R177, and how it ends: from identity `current` with target `next` and
handler state `user`, the loop stops where the target is the current identity, or at an unregistered target (R178),
and otherwise leaves the current identity, enters the target and takes its answer as the next target. -/
inductive FsmChain (reg : FsmRegistry) : (n current next user : Nat) → Cascade → Prop where
  | stay (current user : Nat) : FsmChain reg 0 current current user (.stable current user)
  | unknown (current next user : Nat) (hne : next ≠ current) (hno : fsmLookup reg next = none) :
      FsmChain reg 0 current next user (.unknown current next)
  | move (n current next user next' user' : Nat) (old new : FsmHandler) (res : Cascade) (hne : next ≠ current)
      (hold : fsmLookup reg current = some old) (hnew : fsmLookup reg next = some new)
      (henter : fsmEnter new (fsmExit old user) = (next', user')) (rest : FsmChain reg n next next' user' res) :
      FsmChain reg (n + 1) current next user res

/-- A request of the emulator can start: both subsystems are up, none is outstanding, and the header fits the
addressing (R29, R215, R218). -/
def State.requestReady (s : State) : Prop :=
  s.transportOk = true ∧ s.elmOk = true ∧ s.pend.valid = false ∧
    (s.sess.extended = true ∨ s.sess.headerId.toNat ≤ 0x7FF)

/-- The position of bus `b` in the arbiter's visiting order: at or after `arb_ptr` first, then wrapping (R133). -/
def State.visitPosition (s : State) (b : BusIx) : Nat :=
  if s.arbPtr.toNat ≤ b.toNat then b.toNat else s.numBusses.toNat + b.toNat

/-- The subsystem whose operation an instruction is (R29); the State Machine Engine and the
reset belong to neither. -/
def ownedBy : Instr → Option Subsystem
  | .enable _ _ | .disable _ | .setBitrate _ _ | .setListenOnly _ _ | .isEnabled _ | .getBitrate _
  | .isListenOnly _ | .send _ _ | .receive _ | .getRxBufferedFrames _ | .getTxBufferedFrames _
  | .getRxOverflowCount _ | .getTxOverflowCount _ | .getNumBusses | .setNumBusses _ | .getStatistics _
  | .setBridge _ _ | .handleBridge _ _ | .rxEvent _ _ | .txStep | .rxTaskStep _ | .persist
  | .loadSettings => some .transport
  | .atdesc | .atsp _ | .atat _ | .atst _ | .atdp _ | .atpc | .atrv | .at1 | .atsh _ | .atma _ | .ate _ | .atm _
  | .atl _ | .ats _ | .ath _ | .atd _ | .atz | .ati | .repeatLine | .pid4 _ _ | .pid5 _ _ _ | .pid6 _ _
  | .pid7 _ _ _ | .unknownAt _ | .malformedAt _ | .invalidLine _ | .hostByte _ | .dispatchLine _
  | .handleCanFrame _ | .processCanFrame _ | .formatFrameOutput _ | .sendFlowControl _ | .updateTimeout _
  | .checkForTimeout | .closeOut => some .elm
  | .fsmStep _ | .reset => none

/-- The instructions that can start an exchange: the PID requests, and the ones that carry a host line (R252). -/
def startsExchange : Instr → Bool
  | .pid4 _ _ | .pid5 _ _ _ | .pid6 _ _ | .pid7 _ _ _ | .repeatLine | .dispatchLine _ | .hostByte _ => true
  | _ => false

/-- The instructions that can count a response or end an exchange (R252). -/
def servesExchange : Instr → Bool
  | .handleCanFrame _ | .processCanFrame _ | .rxTaskStep _ | .checkForTimeout | .closeOut => true
  | _ => false

/-- The exchange state of the emulator (R26 (a)). -/
def State.awaiting (s : State) : Bool := s.pend.valid

end Sys2Proof.Machine
end

