-- ==== Sys2Proof/WellFormed.lean ====
section
/-! DEFINITION. Which instructions are well formed. The operand types carry most of it (a `dlc` is at most 8, an
identifier has 29 bits, `ATSP` has one of four digits); what is left are the lines: a line holds no terminator,
and an unknown, malformed or invalid line is one that R75 classifies so. -/

namespace Sys2Proof

/-- A complete line holds neither CR nor LF (R74). -/
def lineOk (s : Bytes) : Bool := s.all fun c => !isTerminator c

/-- A line command is what its own bytes are classified as (R75, R85), and they hold no terminator. -/
def LineCmd.wf (c : LineCmd) : Bool :=
  match c with
  | .unknownAt u => lineOk u && !u.isEmpty && classify u == .unknownAt u
  | .malformedAt u => lineOk u && !u.isEmpty && classify u == .malformedAt u
  | .invalidLine u => lineOk u && !u.isEmpty && classify u == .invalidLine u
  | .atdesc | .atsp _ | .atat _ | .atst _ | .atdp _ | .atpc | .atrv | .at1 | .atsh _ | .atma _ | .ate _
  | .atm _ | .atl _ | .ats _ | .ath _ | .atd _ | .atz | .ati | .pid4 _ _ | .pid5 _ _ _ | .pid6 _ _
  | .pid7 _ _ _ => true

/-- Well-formed instructions. -/
def Instr.wf (i : Instr) : Bool :=
  match i with
  | .unknownAt u => (LineCmd.unknownAt u).wf
  | .malformedAt u => (LineCmd.malformedAt u).wf
  | .invalidLine u => (LineCmd.invalidLine u).wf
  | .dispatchLine line => lineOk line
  | .enable _ _ | .disable _ | .setBitrate _ _ | .setListenOnly _ _ | .isEnabled _ | .getBitrate _
  | .isListenOnly _ | .send _ _ | .receive _ | .getRxBufferedFrames _ | .getTxBufferedFrames _
  | .getRxOverflowCount _ | .getTxOverflowCount _ | .getNumBusses | .setNumBusses _ | .getStatistics _
  | .setBridge _ _ | .handleBridge _ _ | .atdesc | .atsp _ | .atat _ | .atst _ | .atdp _ | .atpc | .atrv | .at1
  | .atsh _ | .atma _ | .ate _ | .atm _ | .atl _ | .ats _ | .ath _ | .atd _ | .atz | .ati | .repeatLine
  | .pid4 _ _ | .pid5 _ _ _ | .pid6 _ _ | .pid7 _ _ _ | .rxEvent _ _ | .txStep | .rxTaskStep _ | .persist
  | .loadSettings | .fsmStep _ | .hostByte _ | .handleCanFrame _ | .processCanFrame _ | .formatFrameOutput _
  | .sendFlowControl _ | .updateTimeout _ | .checkForTimeout | .closeOut | .reset => true

/-- An instruction that has an encoding: every row but the internal events (R87). -/
def Instr.isEncoded (i : Instr) : Bool := (encode i).isSome

end Sys2Proof
end

