-- ==== Sys2Proof/Certificates/Slice0/Obligations.lean ====
section
/-! DEFINITION. The statements for the provers, from the numbered rules of spec/. -/

open Sys2Proof Sys2Proof.Machine

/-! ## Formats and encodings -/

/-- Every Transport API command decodes to itself, whatever bytes follow (R73; the byte layout of the operands is the
model's choice, assumption 3). That a standard frame with an identifier above 0x7FF is an operand like any other is
the model's choice (assumption 27). -/
def Obligations.ApiCommandsRoundTrip : Prop :=
  ∀ (i : Instr) (bs rest : Bytes), encode i = some (.api, bs) → decode .api (bs ++ rest) = .ok (i, rest)

/-- Every well-formed host line decodes to itself and leaves the bytes after its terminator (R74 to R78). -/
def Obligations.HostLinesRoundTrip : Prop :=
  ∀ (i : Instr) (bs rest : Bytes),
    i.wf = true → encode i = some (.hostIn, bs) → decode .hostIn (bs ++ rest) = .ok (i, rest)

/-- Whatever decodes on port `API` is the encoding of the command it decodes to: no two inputs are one command, and no
bit of an input is dropped (assumption 3). -/
def Obligations.ApiBytesHaveOneCommand : Prop :=
  ∀ (bs rest : Bytes) (i : Instr), decode .api bs = .ok (i, rest) →
    ∃ ws, encode i = some (.api, ws) ∧ ws ++ rest = bs

/-- Every terminated line is a well-formed encoded instruction, and upper and lower case are the same command
(R74, R75, R85). -/
def Obligations.HostLinesDecodeWellFormed : Prop :=
  (∀ (bs rest : Bytes) (i : Instr), decode .hostIn bs = .ok (i, rest) → i.wf = true ∧ i.isEncoded = true) ∧
    (∀ s : Bytes, classify (upper s) = classify s) ∧
    ∀ (line rest : Bytes) (c : Byte), lineOk line = true → isTerminator c = true →
      decode .hostIn (line ++ c :: rest) = .ok (decodeLine line, rest)

/-- The reserved and illegal inputs of port `API` are refused by name, and a step that meets one makes no transition
(R85 (d), (e); U1, U2, U3). -/
def Obligations.ReservedApiInputsRefused : Prop :=
  (∀ (op : Byte) (rest : Bytes), 0x11 < op.toNat → decode .api (op :: rest) = .error (.reservedCode op)) ∧
    (∀ (w : Word32) (dlc : Byte) (data : Payload), w.getLsbD 29 = true → frameOf w dlc data = .error .reservedIdBit) ∧
    (∀ (w : Word32) (dlc : Byte) (data : Payload), w.getLsbD 29 = false → 8 < dlc.toNat →
      frameOf w dlc data = .error .dlcAboveEight) ∧
    ∀ (s : State) (bs : Bytes) (e : DecodeError), s.nextStimulus.action = .api bs → decode .api bs = .error e →
      step s = .refused (.undecodable e)

/-- Words written out from the tables of R73, R76, R78 and the programs of spec/95_test_vectors.md decode to the
commands they stand for. The operand bytes on port `API` are the model's choice (assumption 3). -/
def Obligations.HandWrittenWordsDecode : Prop :=
  decode .api [0x00, 0x00, 0x20, 0xA1, 0x07, 0x00] = .ok (.enable 0 500000, []) ∧
    decode .api [0x07, 0x00, 0x00, 0x01, 0x00, 0x00, 0x01, 0xA1, 0, 0, 0, 0, 0, 0, 0] =
      .ok (.send 0 ⟨0x100, false, false, 1, ⟨0xA1, 0, 0, 0, 0, 0, 0, 0⟩⟩, []) ∧
    decode .api [0x10, 0x01, 0x02, 0x00, 0x00, 0x00] = .ok (.setBridge 1 2, []) ∧
    decode .hostIn [0x41, 0x54, 0x53, 0x48, 0x31, 0x38, 0x44, 0x42, 0x33, 0x33, 0x46, 0x31, 0x0D] =
      .ok (.atsh 0x18DB33F1, []) ∧
    decode .hostIn [0x61, 0x74, 0x65, 0x30, 0x0D] = .ok (.ate false, []) ∧
    decode .hostIn [0x30, 0x31, 0x30, 0x35, 0x31, 0x0D, 0x0A] = .ok (.pid5 0x01 0x05 1, [0x0A]) ∧
    decode .hostIn [0x32, 0x32, 0x66, 0x31, 0x39, 0x30, 0x0D] = .ok (.pid6 0x22 0xF190, []) ∧
    decode .hostIn [0x0A] = .ok (.repeatLine, [])

/-- The id word carries `ext` in bit 31, `rtr` in bit 30, zero in bit 29 and the identifier below, the strip mask
recovers the identifier, and a frame is read back from its word, length and data (R71). That a standard frame with an
identifier above 0x7FF is read back like any other is the model's choice (assumption 27). -/
def Obligations.IdWordLayout : Prop :=
  ∀ f : CanFrame,
    (idWord f).getLsbD 31 = f.ext ∧ (idWord f).getLsbD 30 = f.rtr ∧ (idWord f).getLsbD 29 = false ∧
      idWord f &&& 0x1FFFFFFF = f.id.setWidth 32 ∧
      frameOf (idWord f) (BitVec.ofNat 8 f.dlc.val) f.data = .ok f

/-- `hexN(v)` has exactly `N` digits, all uppercase hexadecimal, and spells `v` (R8). -/
def Obligations.HexTextSpellsTheValue : Prop :=
  ∀ n v : Nat, v < 16 ^ n →
    (hexN n v).length = n ∧ hexval (hexN n v) = v ∧ (hexN n v).all isHex = true ∧ upper (hexN n v) = hexN n v

/-- The table of R76, row by row. The row the dispatcher takes is one whose bytes begin the line, no row with more bytes
does, and what follows the bytes is its argument; where no row's bytes begin the line, none is taken and the line is
an unknown AT command (R76). The argument forms of R77, decision D19 (assumption 14): what each row accepts, and that
everything else is malformed. -/
def Obligations.LongestTableRowWins : Prop :=
  atTable.map (fun q => (q.1, q.2.map BitVec.toNat)) =
    [ (.atdesc, [0x41, 0x54, 0x44, 0x45, 0x53, 0x43]), (.atsp, [0x41, 0x54, 0x53, 0x50]),
      (.atat, [0x41, 0x54, 0x41, 0x54]), (.atst, [0x41, 0x54, 0x53, 0x54]), (.atdp, [0x41, 0x54, 0x44, 0x50]),
      (.atpc, [0x41, 0x54, 0x50, 0x43]), (.atrv, [0x41, 0x54, 0x52, 0x56]), (.at1, [0x41, 0x54, 0x40, 0x31]),
      (.atsh, [0x41, 0x54, 0x53, 0x48]), (.atma, [0x41, 0x54, 0x4D, 0x41]), (.ate, [0x41, 0x54, 0x45]),
      (.atm, [0x41, 0x54, 0x4D]), (.atl, [0x41, 0x54, 0x4C]), (.ats, [0x41, 0x54, 0x53]), (.ath, [0x41, 0x54, 0x48]),
      (.atd, [0x41, 0x54, 0x44]), (.atz, [0x41, 0x54, 0x5A]), (.ati, [0x41, 0x54, 0x49]) ] ∧
  (∀ (u rest : Bytes) (row : AtRow), findRow atTable u = some (row, rest) →
    ∃ p, (row, p) ∈ atTable ∧ u = p ++ rest ∧ ∀ q ∈ atTable, q.2 <+: u → q.2.length ≤ p.length) ∧
    (∀ u : Bytes, findRow atTable u = none → (∀ q ∈ atTable, ¬ q.2 <+: u) ∧ decodeAt u = .unknownAt u) ∧
    (∀ (u rest : Bytes) (row : AtRow), findRow atTable u = some (row, rest) →
      decodeAt u = (parseArg row rest).getD (.malformedAt u)) ∧
    ∀ rest : Bytes,
      (∀ p ∈ [(AtRow.atat, LineCmd.atat), (.atma, .atma), (.ate, .ate), (.atm, .atm), (.atl, .atl), (.ats, .ats),
          (.ath, .ath), (.atd, .atd)],
        parseArg p.1 rest =
          if rest.head? = some 0x31 then some (p.2 true)
          else if rest.head? = some 0x30 then some (p.2 false)
          else none) ∧
      (parseArg .atsp rest =
        if rest.head? = some 0x36 then some (.atsp .p6)
        else if rest.head? = some 0x37 then some (.atsp .p7)
        else if rest.head? = some 0x38 then some (.atsp .p8)
        else if rest.head? = some 0x39 then some (.atsp .p9)
        else none) ∧
      (parseArg .atst rest =
        if 1 ≤ rest.length ∧ rest.length ≤ 2 ∧ ∀ c ∈ rest, isHex c = true then
          some (.atst (BitVec.ofNat 8 (hexval rest)))
        else none) ∧
      (parseArg .atsh rest =
        if 1 ≤ rest.length ∧ rest.length ≤ 8 ∧ (∀ c ∈ rest, isHex c = true) ∧ hexval rest ≤ 0x1FFFFFFF then
          some (.atsh (BitVec.ofNat 29 (hexval rest)))
        else none) ∧
      parseArg .atdp rest = some (.atdp (rest.head? = some 0x4E)) ∧
      ∀ p ∈ [(AtRow.atdesc, LineCmd.atdesc), (.atpc, .atpc), (.atrv, .atrv), (.at1, .at1), (.atz, .atz), (.ati, .ati)],
        parseArg p.1 rest = some p.2

/-- The packed layout of the persisted record has `1 + 6 * MAX_BUSSES` bytes and loses nothing (R72, the spec's own
optional layout). Assumption 23. -/
def Obligations.NvmBytesRoundTrip : Prop :=
  ∀ r : NvmRecord, (packRecord r).length = 1 + 6 * r.busConfig.length ∧
    unpackRecord r.busConfig.length (packRecord r) = some { r with valid := true }

/-! ## Steps and invariants -/

/-- A step runs exactly the operation the schedule names, in the state in which the schedule has moved on, the draws
are those of the step and the clock has advanced (R7, R58, R293; the schedule as data is the model's, assumption 2).
That an API command runs whatever operation of `CLIENT` holds is the model's choice (R139, assumption 25). That a host
byte or the poll runs while `ELMTASK` is not holding is its reading of R139 (assumption 5); a stimulus for a holding
`ELMTASK`, which that reading refuses as `agentHolding`, is left out here. -/
def Obligations.StepRunsTheScheduledOperation : Prop :=
  ∀ s : State,
    s.beginStep =
        { s with
          script := s.script.tail, turn := s.turn + 1, draws := s.nextStimulus.draws
          clock := s.clock + s.nextStimulus.draws.elapsed } ∧
      (∀ st rest, s.script = st :: rest → s.nextStimulus = st) ∧
      (∀ bs i tail, s.nextStimulus.action = .api bs → decode .api bs = .ok (i, tail) → step s = exec i s.beginStep) ∧
      (∀ bus w dlc data f, s.nextStimulus.action = .wire bus w dlc data →
        wireFrame w dlc data s.nextStimulus.draws.pad = .ok f → step s = exec (.rxEvent bus f) s.beginStep) ∧
      (∀ c, s.nextStimulus.action = .host c → s.elmHolding = false → step s = exec (.hostByte c) s.beginStep) ∧
      (s.nextStimulus.action = .poll → s.elmHolding = false → step s = exec .checkForTimeout s.beginStep) ∧
      (s.nextStimulus.action = .arbiter → step s = exec .txStep s.beginStep) ∧
      (∀ bus, s.nextStimulus.action = .rxTask bus → step s = exec (.rxTaskStep bus) s.beginStep) ∧
      (∀ k c, s.nextStimulus.action = .fsm k c → step s = exec (.fsmStep ⟨k, c⟩) s.beginStep) ∧
      (s.nextStimulus.action = .reset → step s = exec .reset s.beginStep)

/-- The terminator of a line runs the instruction the line decodes to, in the state in which the line buffer is empty
and a non-empty line is remembered (R190, R191). -/
def Obligations.TerminatorRunsTheDecodedLine : Prop :=
  ∀ (s : State) (c : Byte), s.elmOk = true → isTerminator c = true → s.sess.echo = false →
    exec (.hostByte c) s =
      exec (decodeLine s.lineBuf)
        { s with lineBuf := [], lastCmd := if s.lineBuf = [] then s.lastCmd else s.lineBuf }

/-- Every step keeps the invariant: the queues fit, the count stays below `MAX_BUSSES`, a running controller is
registered, enabled and at the stored rate, the line buffers fit, at most one request is outstanding and a cleared one
is all zero, each engine instance stands on a registered state (R12 to R17, R23, R24, R178, R180). What the invariant says beyond
those rules (the held request, the engine) is the model's reading (assumptions 5 and 11). -/
def Obligations.StepKeepsInv : Prop :=
  ∀ s t : State, s.Inv → step s = .next t → t.Inv

/-- The state right after reset meets the invariant. Its parameters and power-up values are the model's choice
(assumptions 1 and 4). -/
def Obligations.ResetHasInv : Prop := State.reset.Inv

/-- No operation writes the parameters, the clock, the draws or the schedule (R6, R32), and a step writes the
parameters neither. -/
def Obligations.ParametersNeverChange : Prop :=
  (∀ (i : Instr) (s t : State), exec i s = .next t →
    t.inst = s.inst ∧ t.clock = s.clock ∧ t.draws = s.draws ∧ t.script = s.script ∧ t.turn = s.turn) ∧
    ∀ s t : State, step s = .next t → t.inst = s.inst

/-- Outside a reset every queue changes only at its ends: one frame joins at the tail, or the head leaves; the frames
between are untouched (R10, R16, R17, R57). -/
def Obligations.QueuesAreFifo : Prop :=
  ∀ s t : State, step s = .next t → s.nextStimulus.action ≠ .reset →
    ∀ b : BusIx, FifoMove (s.bus b).rxq (t.bus b).rxq ∧ FifoMove (s.bus b).txq (t.bus b).txq

/-- Outside a reset an interrupt registration is never undone (R15), and what the block has put out is never taken back
(R30): the frames and commands given to each controller, the bytes written to the host, the log, the results returned
to callers, and the frames delivered to the other adapters stay, in order, at the front. -/
def Obligations.RegistrationIsNeverUndone : Prop :=
  ∀ s t : State, step s = .next t → s.nextStimulus.action ≠ .reset →
    (∀ b : BusIx, ((s.bus b).irqRegistered = true → (t.bus b).irqRegistered = true) ∧
      (s.bus b).canOut <+: (t.bus b).canOut ∧ (s.bus b).ctrlCmd <+: (t.bus b).ctrlCmd) ∧
      s.hostOut <+: t.hostOut ∧ s.log <+: t.log ∧ s.answers <+: t.answers ∧ s.adapterOut <+: t.adapterOut

/-- Outside a reset an overflow counter changes only by one more dropped frame, modulo 2^32, and only at a full queue,
which the drop leaves as it is (R18, R130, R131). -/
def Obligations.OverflowCountsDroppedFrames : Prop :=
  ∀ s t : State, step s = .next t → s.nextStimulus.action ≠ .reset →
    ∀ b : BusIx,
      ((t.bus b).rxOverflow = (s.bus b).rxOverflow ∨
        ((t.bus b).rxOverflow = (s.bus b).rxOverflow + 1 ∧ s.inst.rxqDepth ≤ (s.bus b).rxq.length ∧
          (t.bus b).rxq = (s.bus b).rxq)) ∧
      ((t.bus b).txOverflow = (s.bus b).txOverflow ∨
        ((t.bus b).txOverflow = (s.bus b).txOverflow + 1 ∧ s.inst.txqDepth ≤ (s.bus b).txq.length ∧
          (t.bus b).txq = (s.bus b).txq))

/-- The persisted record keeps its content or is rewritten in full, with the count and the configurations as they are
at that moment, and only when the lock and the write succeed (R28, R55, R60, R110, R284, R312). -/
def Obligations.PersistedRecordIsWholeOrKept : Prop :=
  ∀ s t : State, step s = .next t →
    t.nvm = s.nvm ∨
      (s.nextStimulus.draws.lockOk = true ∧ s.nextStimulus.draws.persistOk = true ∧
        t.nvm = { valid := true, busCount := t.numBusses, busConfig := t.cfgs })

/-- The transitions between `IDLE` and `AWAITING`: only a PID request, or a host line that is one, arms a request; only
the response path, the poll and the close-out change or clear one; every other instruction but the reset leaves it as
it is (R194, R252). -/
def Obligations.ExchangeTransitions : Prop :=
  ∀ (i : Instr) (s t : State), exec i s = .next t → i ≠ .reset →
    (startsExchange i = false → servesExchange i = false → t.pend = s.pend) ∧
      (startsExchange i = true → t.pend = s.pend ∨ (s.awaiting = false ∧ t.awaiting = true)) ∧
      (servesExchange i = true → t.awaiting = true → s.awaiting = true)

/-- In monitor mode an outstanding request is frozen: no step but a reset changes it (R252, R319). -/
def Obligations.MonitorModeFreezesTheExchange : Prop :=
  ∀ s t : State, step s = .next t → s.nextStimulus.action ≠ .reset → s.sess.monitor = true → s.elmHolding = false →
    s.awaiting = true → t.pend = s.pend

/-- Every operation of a subsystem whose creation failed is refused (R29, U12). Which operations a subsystem has is
the model's reading (assumption 8). -/
def Obligations.DisabledSubsystemRefuses : Prop :=
  ∀ (i : Instr) (s : State),
    (ownedBy i = some .transport → s.transportOk = false → exec i s = .refused (.subsystemDisabled .transport)) ∧
      (ownedBy i = some .elm → s.elmOk = false → exec i s = .refused (.subsystemDisabled .elm))

/-! ## Transport Core: configuration -/

/-- `ENABLE` (R101, R112, R113): stops an enabled bus, starts it at the clamped rate, stores both, and persists; an
invalid index is only logged. Nothing else changes. That the queues survive the restart is the spec's decision D9
(assumption 14). -/
def Obligations.EnableStartsTheController : Prop :=
  ∀ (s : State) (bus : BusIx) (rate r : Word32),
    s.transportOk = true → s.numBusses.toNat ≤ s.buses.length → r.toNat = min rate.toNat s.inst.maxBitrate.toNat →
    (bus.toNat < s.numBusses.toNat →
      ∃ t, exec (.enable bus rate) s = .next t ∧ SameButBus s t bus ∧ PersistLeaves s t ∧
        t.bus bus =
          { s.bus bus with
            cfg := { enabled := true, listenOnly := (s.bus bus).cfg.listenOnly, bitrate := r }
            ctrlRunning := true, ctrlRate := r, irqRegistered := true
            ctrlCmd := (s.bus bus).ctrlCmd ++ (if (s.bus bus).cfg.enabled then [.stop, .start r] else [.start r]) }) ∧
      (s.numBusses.toNat ≤ bus.toNat →
        exec (.enable bus rate) s = .next { s with log := s.log ++ [.invalidBus bus] })

/-- `DISABLE` (R102): stops a running controller, clears the stored flag, persists only when the flag changed; the
queues, the rate and the registration are kept. Its code is 0x01. -/
def Obligations.DisableStopsTheController : Prop :=
  ∀ (s : State) (bus : BusIx), s.transportOk = true → s.numBusses.toNat ≤ s.buses.length →
    (bus.toNat < s.numBusses.toNat →
      ∃ t, exec (.disable bus) s = .next t ∧ SameButBus s t bus ∧
        (if (s.bus bus).cfg.enabled then PersistLeaves s t else NotPersisted s t) ∧
        t.bus bus =
          { s.bus bus with
            cfg := { (s.bus bus).cfg with enabled := false }
            ctrlRunning := false
            ctrlCmd := (s.bus bus).ctrlCmd ++ (if (s.bus bus).ctrlRunning then [.stop] else []) }) ∧
      (s.numBusses.toNat ≤ bus.toNat → exec (.disable bus) s = .next { s with log := s.log ++ [.invalidBus bus] }) ∧
      ∃ operands, encode (.disable bus) = some (.api, 0x01 :: operands)

/-- `SET_BITRATE` (R103, R112): restarts an enabled bus at the clamped rate, stores it, persists only when it changed.
The restart at an unchanged rate is the spec's decision D5 (assumption 14). -/
def Obligations.SetBitrateRestartsAnEnabledBus : Prop :=
  ∀ (s : State) (bus : BusIx) (rate r : Word32),
    s.transportOk = true → s.numBusses.toNat ≤ s.buses.length → r.toNat = min rate.toNat s.inst.maxBitrate.toNat →
    (bus.toNat < s.numBusses.toNat →
      ∃ t, exec (.setBitrate bus rate) s = .next t ∧ SameButBus s t bus ∧
        (if (s.bus bus).cfg.bitrate = r then NotPersisted s t else PersistLeaves s t) ∧
        t.bus bus =
          (if (s.bus bus).cfg.enabled then
            { s.bus bus with
              cfg := { (s.bus bus).cfg with bitrate := r }
              ctrlRunning := true, ctrlRate := r, irqRegistered := true
              ctrlCmd := (s.bus bus).ctrlCmd ++ [.stop, .start r] }
          else { s.bus bus with cfg := { (s.bus bus).cfg with bitrate := r } })) ∧
      (s.numBusses.toNat ≤ bus.toNat →
        exec (.setBitrate bus rate) s = .next { s with log := s.log ++ [.invalidBus bus] })

/-- `SET_LISTENONLY` (R104): stores the flag, gives no controller command, persists only on a change, so that a second
call with the same flag leaves everything as it is. Its code is 0x03. -/
def Obligations.SetListenOnlyIsIdempotent : Prop :=
  ∀ (s : State) (bus : BusIx) (flag : Bool), s.transportOk = true → s.numBusses.toNat ≤ s.buses.length →
    (bus.toNat < s.numBusses.toNat →
      ∃ t, exec (.setListenOnly bus flag) s = .next t ∧ SameButBus s t bus ∧
        (if (s.bus bus).cfg.listenOnly = flag then NotPersisted s t else PersistLeaves s t) ∧
        t.bus bus = { s.bus bus with cfg := { (s.bus bus).cfg with listenOnly := flag } } ∧
        exec (.setListenOnly bus flag) t = .next t) ∧
      (s.numBusses.toNat ≤ bus.toNat →
        exec (.setListenOnly bus flag) s = .next { s with log := s.log ++ [.invalidBus bus] }) ∧
      ∃ operands, encode (.setListenOnly bus flag) = some (.api, 0x03 :: operands)

/-- The getters of the bus configuration, the queues, the counters and the statistics (R105, R106, R107, R134 to
R138): the value read on a valid index, the failure value and a log event on any other; no other state is written. The
failure values are the spec's decision D8 (assumption 14); the record is a draw (assumption 18). -/
def Obligations.GettersReadTheBus : Prop :=
  ∀ (s : State) (bus : BusIx), s.transportOk = true →
    ∀ p ∈
      [ (Instr.isEnabled bus, Answer.bool (s.bus bus).cfg.enabled, Answer.bool false),
        (.getBitrate bus, .word (s.bus bus).cfg.bitrate, .word 0),
        (.isListenOnly bus, .bool (s.bus bus).cfg.listenOnly, .bool false),
        (.getRxBufferedFrames bus, .word (BitVec.ofNat 32 (s.bus bus).rxq.length), .word 0),
        (.getTxBufferedFrames bus, .word (BitVec.ofNat 32 (s.bus bus).txq.length), .word 0),
        (.getRxOverflowCount bus, .word (s.bus bus).rxOverflow, .word 0),
        (.getTxOverflowCount bus, .word (s.bus bus).txOverflow, .word 0),
        (.getStatistics bus, .stats true (some s.draws.stats), .stats false none) ],
      (bus.toNat < s.numBusses.toNat → exec p.1 s = .next { s with answers := s.answers ++ [p.2.1] }) ∧
        (s.numBusses.toNat ≤ bus.toNat →
          exec p.1 s =
            .next { s with log := s.log ++ [.invalidBus bus], answers := s.answers ++ [p.2.2] })

/-- `GET_NUM_BUSSES` and `SET_NUM_BUSSES` (R108, R109, U7): the count is answered; a new count below `MAX_BUSSES` and
above every running bus is stored and persisted on a change; any other is refused. -/
def Obligations.BusCountIsReadAndSet : Prop :=
  ∀ (s : State) (n : Byte), s.transportOk = true →
    exec .getNumBusses s = .next { s with answers := s.answers ++ [.count s.numBusses] } ∧
      (n.toNat < s.inst.maxBusses → (∀ k x, s.buses[k]? = some x → n.toNat ≤ k → x.ctrlRunning = false) →
        ∃ t, exec (.setNumBusses n) s = .next t ∧ t = { s with numBusses := n, nvm := t.nvm, log := t.log } ∧
          (if s.numBusses = n then NotPersisted s t else PersistLeaves s t)) ∧
      (s.inst.maxBusses ≤ n.toNat ∨ (∃ k x, s.buses[k]? = some x ∧ n.toNat ≤ k ∧ x.ctrlRunning = true) →
        exec (.setNumBusses n) s = .refused .busCount)

/-- `PERSIST` (R110, R288): the lock is tested before the write; a success rewrites the record in full, a failure is
logged and rolls nothing back. -/
def Obligations.PersistRewritesTheRecord : Prop :=
  ∀ s : State, s.transportOk = true →
    (s.draws.lockOk = false → exec .persist s = .next { s with log := s.log ++ [.lockTimeout] }) ∧
      (s.draws.lockOk = true → s.draws.persistOk = false →
        exec .persist s = .next { s with log := s.log ++ [.persistFail] }) ∧
      (s.draws.lockOk = true → s.draws.persistOk = true →
        exec .persist s =
          .next { s with nvm := { valid := true, busCount := s.numBusses, busConfig := s.cfgs } })

/-- `LOAD_SETTINGS` (R111): a valid record replaces the count and every configuration; without one the defaults do,
and `PersistFail` is logged. Controllers, queues and counters are untouched. The fallback is the spec's decision D12
(assumption 14). -/
def Obligations.LoadSettingsTakesTheRecord : Prop :=
  ∀ s : State, s.transportOk = true → s.nvm.busConfig.length = s.buses.length →
    ∃ t, exec .loadSettings s = .next t ∧ t = { s with numBusses := t.numBusses, buses := t.buses, log := t.log } ∧
      t.buses.length = s.buses.length ∧
      (∀ b : BusIx, b.toNat < s.buses.length → t.bus b = { s.bus b with cfg := (t.bus b).cfg }) ∧
      (s.nvm.valid = true → s.nvm.busCount.toNat < s.inst.maxBusses →
        t.numBusses = s.nvm.busCount ∧ t.cfgs = s.nvm.busConfig ∧ t.log = s.log) ∧
      (s.nvm.valid = false ∨ s.inst.maxBusses ≤ s.nvm.busCount.toNat →
        t.numBusses = s.inst.defaultNumBusses ∧ t.log = s.log ++ [.persistFail] ∧
          ∀ c ∈ t.cfgs, c = { enabled := false, listenOnly := false, bitrate := s.inst.defaultBitrate })

/-- The round trip of the persisted configuration (R111): what a successful `PERSIST` wrote, `LOAD_SETTINGS` restores in
any later state that still holds the record. -/
def Obligations.PersistThenLoadRestores : Prop :=
  ∀ s t u : State, s.draws.lockOk = true → s.draws.persistOk = true → s.numBusses.toNat < s.inst.maxBusses →
    exec .persist s = .next t → u.nvm = t.nvm → u.inst = s.inst → u.buses.length = s.buses.length →
    u.transportOk = true →
    ∃ v, exec .loadSettings u = .next v ∧ v.cfgs = s.cfgs ∧ v.numBusses = s.numBusses

/-! ## Transport Core: queues and arbiter -/

/-- `RX_EVENT` (R130, R290, R292): a registered, running controller's frame joins the receive queue, or is dropped and
counted when the queue is full, with no log; otherwise nothing is delivered. It writes nothing else. That another
event delivers nothing is the model's reading (assumption 10). That a standard frame with an identifier above 0x7FF is
taken like any other is the model's choice (assumption 27). -/
def Obligations.RxEventQueuesOrCounts : Prop :=
  ∀ (s : State) (b : BusIx) (f : CanFrame), s.transportOk = true →
    ((s.bus b).irqRegistered = true → (s.bus b).ctrlRunning = true → (s.bus b).rxq.length < s.inst.rxqDepth →
      exec (.rxEvent b f) s = .next (s.setBus b { s.bus b with rxq := (s.bus b).rxq ++ [f] })) ∧
      ((s.bus b).irqRegistered = true → (s.bus b).ctrlRunning = true → s.inst.rxqDepth ≤ (s.bus b).rxq.length →
        exec (.rxEvent b f) s = .next (s.setBus b { s.bus b with rxOverflow := (s.bus b).rxOverflow + 1 })) ∧
      ((s.bus b).irqRegistered = false ∨ (s.bus b).ctrlRunning = false → exec (.rxEvent b f) s = .next s)

/-- `SEND` (R131, R139, R288): the class (a) checks in their order, then the queue; a full queue gives up (counted,
logged) or holds. The codes and the order of the checks are the spec's decision D7 (assumption 14); the hold is
assumption 5. That a standard frame with an identifier above 0x7FF is taken like any other is the model's choice
(assumption 27). -/
def Obligations.SendChecksThenQueues : Prop :=
  ∀ (s : State) (b : BusIx) (f : CanFrame), s.transportOk = true →
    (s.numBusses.toNat ≤ b.toNat →
      exec (.send b f) s =
        .next { s with log := s.log ++ [.invalidBus b], answers := s.answers ++ [.code (-1)] }) ∧
    (b.toNat < s.numBusses.toNat → (s.bus b).cfg.enabled = false →
      exec (.send b f) s =
        .next { s with log := s.log ++ [.notEnabled b], answers := s.answers ++ [.code (-2)] }) ∧
    (b.toNat < s.numBusses.toNat → (s.bus b).cfg.enabled = true → (s.bus b).cfg.listenOnly = true →
      exec (.send b f) s =
        .next { s with log := s.log ++ [.listenOnly b], answers := s.answers ++ [.code (-3)] }) ∧
    (s.accepts b →
      exec (.send b f) s =
        .next { s.setBus b { s.bus b with txq := (s.bus b).txq ++ [f] } with answers := s.answers ++ [.code 0] }) ∧
    (b.toNat < s.numBusses.toNat → (s.bus b).cfg.enabled = true → (s.bus b).cfg.listenOnly = false →
      s.inst.txqDepth ≤ (s.bus b).txq.length →
      exec (.send b f) s =
        (if s.draws.giveUp then
          .next
            { s.setBus b { s.bus b with txOverflow := (s.bus b).txOverflow + 1 } with
              log := s.log ++ [.queueFull b], answers := s.answers ++ [.code (-4)] }
        else .next { s with held := s.held ++ [.send b f .client] }))

/-- `RECEIVE` (R132, R139): the head and the count left after it; on an empty queue a give-up that is not logged, or a
hold; an invalid index is logged. The codes are the spec's decision D7 (assumption 14); the hold is assumption 5. -/
def Obligations.ReceiveTakesTheHead : Prop :=
  ∀ (s : State) (b : BusIx), s.transportOk = true →
    (s.numBusses.toNat ≤ b.toNat →
      exec (.receive b) s =
        .next { s with log := s.log ++ [.invalidBus b], answers := s.answers ++ [.received (-1) none] }) ∧
    (∀ f rest, b.toNat < s.numBusses.toNat → (s.bus b).rxq = f :: rest →
      exec (.receive b) s =
        .next
          { s.setBus b { s.bus b with rxq := rest } with
            answers := s.answers ++ [.received rest.length (some f)] }) ∧
    (b.toNat < s.numBusses.toNat → (s.bus b).rxq = [] →
      exec (.receive b) s =
        (if s.draws.giveUp then .next { s with answers := s.answers ++ [.received (-5) none] }
        else .next { s with held := s.held ++ [.receive b] }))

/-- Held operations (R139, R131, R323 (1)). A held `SEND` looks at its queue again and makes no class (a) check: it
completes once there is room, even on a bus disabled meanwhile; while there is none it gives up, counted and logged, or
goes on holding. Then the rest of its caller runs: `SEND` and `HANDLE_BRIDGE` answer, a PID request is armed at the time
it completes, a flow control has no rest, `PROCESS_CAN_FRAME` writes its line and books the response. A held `RECEIVE`
takes the head, gives up or goes on. The receive task holds in the same three places: in `RECEIVE`, in the forward of
its frame, in the flow control of its frame. How a held operation is remembered is the model's choice (assumptions 5
and 26). -/
def Obligations.HeldSendCompletesOnRoom : Prop :=
  (∀ (s : State) (k : Nat), s.nextStimulus.action = .resume k → s.transportOk = true →
    (∀ (b : BusIx) (f g : CanFrame) (service : Byte) (pid : BitVec 16) (expected : Byte) (line : Bytes),
      ∀ p ∈
        [ (SendCont.client, fun (r : Int) (u : State) => { u with answers := u.answers ++ [.code r] }),
          (.bridge, fun r u => { u with answers := u.answers ++ [.bool (0 ≤ r)] }),
          (.pid service pid expected, fun _ u =>
            { u with
              pend :=
                { valid := true, service := service, pid := pid, tStart := u.clock, tLast := u.clock, received := 0
                  expected := expected, processed := false } }),
          (.flow, fun _ u => u),
          (.frame .direct g line, fun _ u => ({ u with hostOut := u.hostOut ++ line } : State).bookkeepIfDue) ],
      s.held[k]? = some (.send b f p.1) →
      (∀ r u, s.beginStep.sendSettles b f r u → step s = .next (p.2 r { u with held := s.held.eraseIdx k })) ∧
        (s.beginStep.sendWaits b → step s = .next s.beginStep)) ∧
    (∀ b : BusIx, s.held[k]? = some (.receive b) →
      (∀ f rest, (s.bus b).rxq = f :: rest →
        step s =
          .next
            { s.beginStep.setBus b { s.bus b with rxq := rest } with
              held := s.held.eraseIdx k, answers := s.answers ++ [.received rest.length (some f)] }) ∧
      ((s.bus b).rxq = [] →
        step s =
          .next
            (if s.nextStimulus.draws.giveUp then
              { s.beginStep with held := s.held.eraseIdx k, answers := s.answers ++ [.received (-5) none] }
            else s.beginStep))) ∧
    (s.held[k]? = none → step s = .next s.beginStep)) ∧
  ∀ (s : State) (bus : BusIx), s.transportOk = true → bus.toNat < s.buses.length →
    (∀ f rest, (s.bus bus).rxTask = .receiving → (s.bus bus).rxq = f :: rest →
      exec (.rxTaskStep bus) s = .next (s.setBus bus { s.bus bus with rxq := rest, rxTask := .bridging f })) ∧
    ((s.bus bus).rxTask = .receiving → (s.bus bus).rxq = [] →
      exec (.rxTaskStep bus) s =
        .next (s.setBus bus { s.bus bus with rxTask := if s.draws.giveUp then .idle else .receiving })) ∧
    (∀ other f, (s.bus bus).rxTask = .forwarding other f →
      (∀ r u, s.sendSettles other f r u →
        exec (.rxTaskStep bus) s = .next (u.setBus bus { u.bus bus with rxTask := .emulating f })) ∧
      (s.sendWaits other → exec (.rxTaskStep bus) s = .next s)) ∧
    ∀ b fc f line, (s.bus bus).rxTask = .answering b fc f line →
      (∀ r u v, s.sendSettles b fc r u → v = ({ u with hostOut := u.hostOut ++ line } : State).bookkeepIfDue →
        exec (.rxTaskStep bus) s =
          .next
            { v.setBus bus { v.bus bus with rxTask := .idle } with
              adapterOut := v.adapterOut ++ [(bus, f)] }) ∧
      (s.sendWaits b → exec (.rxTaskStep bus) s = .next s)

/-- `TX_STEP` (R133): idle when no queue has a frame; else the head of the served bus goes to its controller and
`arb_ptr` stays on the bus while it has frames. The bus is the first in the visiting order, or the one the environment
draws (the choice is open, R133 corner case 2). The drawn bus is the model's reading of D10 (assumption 6). -/
def Obligations.TxStepServesInOrder : Prop :=
  ∀ s : State, s.transportOk = true → s.numBusses.toNat ≤ s.buses.length →
    ((∀ b : BusIx, b.toNat < s.numBusses.toNat → (s.bus b).txq = []) → exec .txStep s = .next s) ∧
      ∀ (b : BusIx) (f : CanFrame) (rest : List CanFrame),
        b.toNat < s.numBusses.toNat → (s.bus b).txq = f :: rest →
        (s.draws.txChoice = some b ∨
          (s.draws.txChoice = none ∧ ∀ c : BusIx, c.toNat < s.numBusses.toNat → (s.bus c).txq ≠ [] →
            s.visitPosition b ≤ s.visitPosition c)) →
        exec .txStep s =
          .next
            { s.setBus b { s.bus b with txq := rest, canOut := (s.bus b).canOut ++ [f] } with
              arbPtr := if rest = [] then BitVec.ofNat 8 ((b.toNat + 1) % s.numBusses.toNat) else b }

/-- Whatever the environment draws, a `TX_STEP` with a frame queued on a valid bus moves the head of exactly one bus
to its controller and touches no other bus (R133, R57). Assumption 6. -/
def Obligations.TxStepMovesOneHead : Prop :=
  ∀ (s : State) (b : BusIx), s.transportOk = true → s.numBusses.toNat ≤ s.buses.length →
    b.toNat < s.numBusses.toNat → (s.bus b).txq ≠ [] →
    ∃ (t : State) (c : BusIx) (f : CanFrame) (rest : List CanFrame),
      exec .txStep s = .next t ∧ c.toNat < s.numBusses.toNat ∧ (s.bus c).txq = f :: rest ∧
        t = { s with buses := t.buses, arbPtr := t.arbPtr } ∧
        t.bus c = { s.bus c with txq := rest, canOut := (s.bus c).canOut ++ [f] } ∧
        ∀ d : BusIx, d ≠ c → t.bus d = s.bus d

/-! ## Bridge and receive task -/

/-- `SET_BRIDGE` (R160): stores the pair, whatever it is; without the lock nothing but the log changes. That the
indices are not validated is the spec's decision D13 (assumption 14). -/
def Obligations.SetBridgeStoresThePair : Prop :=
  ∀ (s : State) (a b : BusIx), s.transportOk = true →
    exec (.setBridge a b) s =
      (if s.draws.lockOk then .next { s with bridge := { a := a, b := b } }
      else .next { s with log := s.log ++ [.lockTimeout] })

/-- `HANDLE_BRIDGE` (R161, R162): without the lock, with an equal pair or on a bus outside the pair nothing is
forwarded; otherwise the unmodified frame goes to the other side's `SEND`, and the result is whether it was queued.
The pair is unordered. The result of a failed forward is the spec's decision D13 (assumption 14). That a standard
frame with an identifier above 0x7FF is taken like any other is the model's choice (assumption 27). -/
def Obligations.HandleBridgeForwards : Prop :=
  ∀ (s : State) (bus : BusIx) (f : CanFrame), s.transportOk = true →
    (s.draws.lockOk = false →
      exec (.handleBridge bus f) s =
        .next { s with log := s.log ++ [.lockTimeout], answers := s.answers ++ [.bool false] }) ∧
    (s.draws.lockOk = true → s.bridge.a = s.bridge.b ∨ (bus ≠ s.bridge.a ∧ bus ≠ s.bridge.b) →
      exec (.handleBridge bus f) s = .next { s with answers := s.answers ++ [.bool false] }) ∧
    ∀ other : BusIx, s.draws.lockOk = true → bus ≠ other →
      (s.bridge = { a := bus, b := other } ∨ s.bridge = { a := other, b := bus }) →
      (s.accepts other →
        exec (.handleBridge bus f) s =
          .next
            { s.setBus other { s.bus other with txq := (s.bus other).txq ++ [f] } with
              answers := s.answers ++ [.bool true] }) ∧
      ∀ (u : State) (r : Int), exec (.send other f) s = .next u → u.answers = s.answers ++ [.code r] →
        exec (.handleBridge bus f) s = .next { u with answers := s.answers ++ [.bool (0 ≤ r)] }

/-- `RX_TASK_STEP` (R163, R58): its three transitions. The first takes the head of the receive queue, or finds it empty
and gives up or holds; the second bridges it, the result unused: whatever `SEND` answers, and without the bridge lock,
the task goes on to the third, unless the forward holds; the third hands it to the emulator and then to the other
adapters, unless its flow control holds. The phases are the model's (assumption 7), how a hold is remembered too
(assumptions 5 and 26), the order of the consumers is the spec's decision D14. -/
def Obligations.ReceiveTaskFansOut : Prop :=
  ∀ (s : State) (bus : BusIx) (f : CanFrame), s.transportOk = true → s.numBusses.toNat ≤ s.buses.length →
    bus.toNat < s.buses.length →
    (∀ rest, (s.bus bus).rxTask = .idle → bus.toNat < s.numBusses.toNat → (s.bus bus).rxq = f :: rest →
      exec (.rxTaskStep bus) s =
        .next (s.setBus bus { s.bus bus with rxq := rest, rxTask := .bridging f })) ∧
    ((s.bus bus).rxTask = .bridging f → s.draws.lockOk = true →
      s.bridge.a = s.bridge.b ∨ (bus ≠ s.bridge.a ∧ bus ≠ s.bridge.b) →
      exec (.rxTaskStep bus) s = .next (s.setBus bus { s.bus bus with rxTask := .emulating f })) ∧
    (∀ other, (s.bus bus).rxTask = .bridging f → s.draws.lockOk = true → bus ≠ other →
      (s.bridge = { a := bus, b := other } ∨ s.bridge = { a := other, b := bus }) → s.accepts other →
      ∃ t, exec (.rxTaskStep bus) s = .next t ∧ t = { s with buses := t.buses } ∧
        t.bus bus = { s.bus bus with rxTask := .emulating f } ∧
        t.bus other = { s.bus other with txq := (s.bus other).txq ++ [f] } ∧
        ∀ c, c ≠ bus → c ≠ other → t.bus c = s.bus c) ∧
    ((s.bus bus).rxTask = .idle → bus.toNat < s.numBusses.toNat → (s.bus bus).rxq = [] →
      exec (.rxTaskStep bus) s =
        .next (s.setBus bus { s.bus bus with rxTask := if s.draws.giveUp then .idle else .receiving })) ∧
    ((s.bus bus).rxTask = .idle → s.numBusses.toNat ≤ bus.toNat →
      exec (.rxTaskStep bus) s = .next { s with log := s.log ++ [.invalidBus bus] }) ∧
    ((s.bus bus).rxTask = .bridging f → s.draws.lockOk = false →
      exec (.rxTaskStep bus) s =
        .next { s.setBus bus { s.bus bus with rxTask := .emulating f } with log := s.log ++ [.lockTimeout] }) ∧
    (∀ other, (s.bus bus).rxTask = .bridging f → s.draws.lockOk = true → bus ≠ other →
      (s.bridge = { a := bus, b := other } ∨ s.bridge = { a := other, b := bus }) →
      (∀ r u, s.sendResults other f r u →
        exec (.rxTaskStep bus) s = .next (u.setBus bus { u.bus bus with rxTask := .emulating f })) ∧
      (s.sendPasses other → s.sendWaits other →
        exec (.rxTaskStep bus) s = .next (s.setBus bus { s.bus bus with rxTask := .forwarding other f }))) ∧
    ((s.bus bus).rxTask = .emulating f → s.elmOk = true → s.sess.monitor = false →
      inRespRange f.id s.sess.extended = true → s.draws.lockOk = true → f.data.b0 &&& 0xF0 = 0x10 →
      s.sendPasses s.inst.elmBus → s.sendWaits s.inst.elmBus →
      exec (.rxTaskStep bus) s =
        .next
          (s.setBus bus
            { s.bus bus with
              rxTask :=
                .answering s.inst.elmBus (flowFrame f.id s.sess.extended) f
                  (formatFrame s.inst s.sess s.draws.wideId f) })) ∧
    (∀ u : State, (s.bus bus).rxTask = .emulating f → exec (.handleCanFrame f) s = .next u → u.held = s.held →
      exec (.rxTaskStep bus) s =
        .next
          { u.setBus bus { u.bus bus with rxTask := .idle } with
            adapterOut := u.adapterOut ++ [(bus, f)] }) ∧
    ((s.bus bus).rxTask = .emulating f → s.elmOk = true → s.sess.monitor = false →
      inRespRange f.id s.sess.extended = false →
      exec (.rxTaskStep bus) s =
        .next
          { s.setBus bus { s.bus bus with rxTask := .idle } with
            adapterOut := s.adapterOut ++ [(bus, f)] })

/-! ## State Machine Engine -/

/-- `FSM_STEP` of engine instance `k` (R177, R178): a `tick` that stays calls nothing more; a `tick` into a state whose
`enter` stays leaves the old state and enters the new one; a `tick` to an unregistered identity leaves the current one,
is logged, returns the side output and puts the instance at fault; and a `tick` that starts a chain of redirects ends
where the chain ends, the side output being that of `tick`, with an unregistered target met on the way treated as
above. An instance at fault makes no further step. Chains are followed as far as the model's fuel, beyond which
`FuelExhaustionIsAHang`. Handlers as tables, the fuel, and the fault after an unknown target, are the model's
(assumption 11). -/
def Obligations.FsmStepFollowsTheHandlers : Prop :=
  ∀ (s : State) (k : Nat) (c : Byte) (p : FsmParams) (e : FsmEngine) (h : FsmHandler),
    s.inst.engines[k]? = some p → s.engines[k]? = some e → fsmLookup p.registry e.current = some h →
    (e.faulted = true → exec (.fsmStep ⟨k, c⟩) s = .fault .fsmInstance) ∧
    ∀ next out user, fsmTick h e.user c = (next, out, user) → e.faulted = false →
      (next = e.current →
        exec (.fsmStep ⟨k, c⟩) s =
          .next
            { s with
              engines := s.engines.set k { current := e.current, user := user, faulted := false }
              answers := s.answers ++ [.sideOutput out] }) ∧
      (∀ h' user', next ≠ e.current → fsmLookup p.registry next = some h' →
        fsmEnter h' (fsmExit h user) = (next, user') →
        exec (.fsmStep ⟨k, c⟩) s =
          .next
            { s with
              engines := s.engines.set k { current := next, user := user', faulted := false }
              answers := s.answers ++ [.sideOutput out] }) ∧
      (next ≠ e.current → fsmLookup p.registry next = none →
        exec (.fsmStep ⟨k, c⟩) s =
          .next
            { s with
              engines := s.engines.set k { current := e.current, user := s.draws.fsmUser, faulted := true }
              log := s.log ++ [.unknownState next], answers := s.answers ++ [.sideOutput out] }) ∧
      (∀ n last user', n ≤ cascadeFuel p.registry → FsmChain p.registry n e.current next user (.stable last user') →
        exec (.fsmStep ⟨k, c⟩) s =
          .next
            { s with
              engines := s.engines.set k { current := last, user := user', faulted := false }
              answers := s.answers ++ [.sideOutput out] }) ∧
      ∀ n last target, n ≤ cascadeFuel p.registry →
        FsmChain p.registry n e.current next user (.unknown last target) →
        exec (.fsmStep ⟨k, c⟩) s =
          .next
            { s with
              engines := s.engines.set k { current := last, user := s.draws.fsmUser, faulted := true }
              log := s.log ++ [.unknownState target], answers := s.answers ++ [.sideOutput out] }

/-- The engine instances are isolated (R180): `FSM_STEP` of one writes only that instance, its answer and its log
event; it leaves every other instance as it is; and its result depends on nothing but that instance, its registry and
the draw, so that two instances alike in these, in whatever states of the block and under whatever numbers, step alike.
An instance that was not constructed makes no step. Handlers as tables are the model's (assumption 11). -/
def Obligations.FsmIsIsolated : Prop :=
  (∀ (s t : State) (k : Nat) (c : Byte), exec (.fsmStep ⟨k, c⟩) s = .next t →
    t = { s with engines := t.engines, log := t.log, answers := t.answers } ∧
      t.engines.length = s.engines.length ∧ (∀ j, j ≠ k → t.engines[j]? = s.engines[j]?) ∧
      ∀ (u : State) (j : Nat), u.inst.engines[j]? = s.inst.engines[k]? → u.engines[j]? = s.engines[k]? →
        u.draws.fsmUser = s.draws.fsmUser →
        ∃ v out events, exec (.fsmStep ⟨j, c⟩) u = .next v ∧ v.engines[j]? = t.engines[k]? ∧
          t.answers = s.answers ++ [out] ∧ v.answers = u.answers ++ [out] ∧
          t.log = s.log ++ events ∧ v.log = u.log ++ events) ∧
    ∀ (s : State) (k : Nat) (c : Byte), s.inst.engines[k]? = none ∨ s.engines[k]? = none →
      exec (.fsmStep ⟨k, c⟩) s = .refused .noEngine

/-- The fuel decides nothing (R179): a cascade that spends the model's fuel never stabilises, however much more it is
given. The fuel is the model's (assumption 11). -/
def Obligations.FuelExhaustionIsAHang : Prop :=
  ∀ (reg : FsmRegistry) (current next user : Nat), cascade reg (cascadeFuel reg) current next user = .hang →
    ∀ fuel, cascade reg fuel current next user = .hang

/-! ## Emulator: host commands -/

/-- The eight flag commands (R194, R197, R204 to R210): each writes its one session field and replies with the OK
terminator in the linefeed form then in force. The pairing of command and field is the spec's decision D21 (assumption
14). -/
def Obligations.AtFlagCommands : Prop :=
  ∀ (s : State) (on : Bool), s.elmOk = true →
    ∀ p ∈
      [ (Instr.atat on, { s.sess with adaptive := on }), (.atma on, { s.sess with monitor := on }),
        (.ate on, { s.sess with echo := on }), (.atm on, { s.sess with memory := on }),
        (.atl on, { s.sess with linefeed := on }), (.ats on, { s.sess with whitespace := on }),
        (.ath on, { s.sess with headers := on }), (.atd on, { s.sess with dlcDisplay := on }) ],
      exec p.1 s =
        .next
          { s with
            sess := p.2
            hostOut :=
              s.hostOut ++
                (if p.2.linefeed then [0x0D, 0x0A, 0x4F, 0x4B, 0x0D, 0x0A, 0x3E]
                else [0x0D, 0x4F, 0x4B, 0x0D, 0x0D, 0x3E]) }

/-- The commands that set a value (R196, R198, R203, R211): addressing, timeout in units of 4 ms, header, and the
whole session from its defaults; nothing but `sess` and the reply is written. The digits of `ATSP` are assumption 9,
the pairing of command and field the spec's decision D21 (assumption 14). -/
def Obligations.AtValueCommands : Prop :=
  ∀ s : State, s.elmOk = true →
    (∀ d, exec (.atsp d) s =
      .next
        { s with
          sess := { s.sess with extended := d == .p7 || d == .p9 }
          hostOut := s.hostOut ++ okTerm s.sess.linefeed }) ∧
    (∀ hh ms, ms.toNat = hh.toNat * 4 →
      exec (.atst hh) s =
        .next
          { s with sess := { s.sess with timeoutMs := ms }, hostOut := s.hostOut ++ okTerm s.sess.linefeed }) ∧
    (∀ h, exec (.atsh h) s =
      .next { s with sess := { s.sess with headerId := h }, hostOut := s.hostOut ++ okTerm s.sess.linefeed }) ∧
    exec .atz s =
      .next { s with sess := s.inst.elmDefaults, hostOut := s.hostOut ++ okTerm s.inst.elmDefaults.linefeed }

/-- The commands that echo configuration (R195, R199 to R202, R212): the text and the terminator, no state. -/
def Obligations.AtInfoCommands : Prop :=
  ∀ s : State, s.elmOk = true →
    ∀ p ∈
      [ (Instr.atdesc, s.inst.strAtdesc), (.atpc, []), (.atrv, s.inst.strAtrv), (.at1, s.inst.strAt1),
        (.ati, s.inst.strAti),
        (.atdp false, if s.sess.extended then s.inst.strAtdp.extended else s.inst.strAtdp.standard),
        (.atdp true, if s.sess.extended then s.inst.strAtdpn.extended else s.inst.strAtdpn.standard) ],
      exec p.1 s = .next { s with hostOut := s.hostOut ++ p.2 ++ okTerm s.sess.linefeed }

/-- Lines that are no command (R213, R214, R216): one log event and the reply of the parameters, no other state. The
reply is the spec's decision D19 (assumption 14). -/
def Obligations.BadLinesAreAnswered : Prop :=
  ∀ (s : State) (u : Bytes), s.elmOk = true →
    (∀ p ∈ [(Instr.unknownAt u, LogEvent.unknownAt u), (.malformedAt u, .malformedAt u)],
      exec p.1 s =
        .next
          { s with
            log := s.log ++ [p.2]
            hostOut :=
              s.hostOut ++
                (match s.inst.unknownAtReply with
                | .okTerminator => okTerm s.sess.linefeed
                | .question => if s.sess.linefeed then s.inst.errReply.on else s.inst.errReply.off
                | .none => []) }) ∧
    exec (.invalidLine u) s =
      .next
        { s with
          log := s.log ++ [.badCommand u]
          hostOut := s.hostOut ++ (if s.sess.linefeed then s.inst.errReply.on else s.inst.errReply.off) }

/-- The four PID requests (R78, R79, R215) when `ELM_BUS` takes the frame: the request frame is queued, the pending
request is armed with the decoded operands and the start time, and nothing is written to the host. -/
def Obligations.PidRequestSendsAndArms : Prop :=
  ∀ (s : State) (mode pid : Byte) (pid2 : BitVec 16) (expected : BitVec 4),
    s.requestReady → s.accepts s.inst.elmBus →
    ∀ p ∈
      [ (Instr.pid4 mode pid, (⟨0x02, mode, pid, 0, 0, 0, 0, 0⟩ : Payload), pid.setWidth 16, (0 : Byte)),
        (.pid5 mode pid expected, ⟨0x02, mode, pid, 0, 0, 0, 0, 0⟩, pid.setWidth 16, expected.setWidth 8),
        (.pid6 mode pid2, ⟨0x03, mode, pid2.extractLsb' 8 8, pid2.extractLsb' 0 8, 0, 0, 0, 0⟩, pid2, 0),
        (.pid7 mode pid2 expected, ⟨0x03, mode, pid2.extractLsb' 8 8, pid2.extractLsb' 0 8, 0, 0, 0, 0⟩, pid2,
          expected.setWidth 8) ],
      exec p.1 s =
        .next
          { s.setBus s.inst.elmBus
              { s.bus s.inst.elmBus with
                txq :=
                  (s.bus s.inst.elmBus).txq ++
                    [{ id := s.sess.headerId, ext := s.sess.extended, rtr := false, dlc := 8, data := p.2.1 }] } with
            pend :=
              { valid := true, service := mode, pid := p.2.2.1, tStart := s.clock, tLast := s.clock, received := 0
                expected := p.2.2.2, processed := false } }

/-- A PID request of any of the four forms whose `SEND` fails is armed all the same (R215): the error `SEND` raises is
the one log event (`InvalidBus`, `NotEnabled`, `ListenOnly` or `QueueFull` of `ELM_BUS`), no bus changes but for the
overflow counter of `ELM_BUS` at a full queue, and nothing else changes. One that finds no room and does not give up
holds, and nothing but the held list changes (R139, assumption 5). The arming is the spec's decision D23 (assumption
14). -/
def Obligations.PidRequestArmsWithoutTheFrame : Prop :=
  ∀ (s : State) (mode pid : Byte) (pid2 : BitVec 16) (expected : BitVec 4), s.requestReady →
    ∀ p ∈
      [ (Instr.pid4 mode pid, (⟨0x02, mode, pid, 0, 0, 0, 0, 0⟩ : Payload), pid.setWidth 16, (0 : Byte)),
        (.pid5 mode pid expected, ⟨0x02, mode, pid, 0, 0, 0, 0, 0⟩, pid.setWidth 16, expected.setWidth 8),
        (.pid6 mode pid2, ⟨0x03, mode, pid2.extractLsb' 8 8, pid2.extractLsb' 0 8, 0, 0, 0, 0⟩, pid2, 0),
        (.pid7 mode pid2 expected, ⟨0x03, mode, pid2.extractLsb' 8 8, pid2.extractLsb' 0 8, 0, 0, 0, 0⟩, pid2,
          expected.setWidth 8) ],
      ∀ f : CanFrame, f = { id := s.sess.headerId, ext := s.sess.extended, rtr := false, dlc := 8, data := p.2.1 } →
        (∀ r u, s.sendResults s.inst.elmBus f r u → r < 0 →
          exec p.1 s =
            .next
              { u with
                pend :=
                  { valid := true, service := mode, pid := p.2.2.1, tStart := s.clock, tLast := s.clock
                    received := 0, expected := p.2.2.2, processed := false } }) ∧
        (s.sendPasses s.inst.elmBus → s.sendWaits s.inst.elmBus →
          exec p.1 s =
            .next { s with held := s.held ++ [.send s.inst.elmBus f (.pid mode p.2.2.1 p.2.2.2)] })

/-- A PID request is refused while one is outstanding, and with standard addressing and a header above 0x7FF (R215,
R218, U13, U15). -/
def Obligations.PidRequestRefused : Prop :=
  ∀ (s : State) (mode pid : Byte) (pid2 : BitVec 16) (expected : BitVec 4), s.elmOk = true →
    ∀ i ∈ [Instr.pid4 mode pid, .pid5 mode pid expected, .pid6 mode pid2, .pid7 mode pid2 expected],
      (s.pend.valid = true → exec i s = .refused .requestOutstanding) ∧
        (s.pend.valid = false → s.sess.extended = false → 0x7FF < s.sess.headerId.toNat →
          exec i s = .refused .headerNotStandard)

/-- `DISPATCH_LINE` and `REPEAT` (R191, R192): a non-empty line is remembered and executed as the command it is; an
empty one executes the remembered command, or does nothing. A line that is no PID request always completes. What is
remembered, and the empty memory, are the spec's decision D17 (assumption 14). -/
def Obligations.LinesAreDispatched : Prop :=
  ∀ s : State, s.elmOk = true →
    (∀ line, line ≠ [] →
      exec (.dispatchLine line) s = exec (classify line).toInstr { s with lastCmd := line }) ∧
    exec (.dispatchLine []) s = exec .repeatLine s ∧
    (s.lastCmd = [] → exec .repeatLine s = .next s) ∧
    (s.lastCmd ≠ [] → exec .repeatLine s = exec (classify s.lastCmd).toInstr s) ∧
    (∀ line, (∃ v ∈ line, isHex v = false) →
      (∃ t, exec (.dispatchLine line) s = .next t ∧ t.lastCmd = line ∧ t.pend = s.pend ∧ t.buses = s.buses) ∧
        (s.lastCmd = line → ∃ t, exec .repeatLine s = .next t ∧ t.lastCmd = line ∧ t.pend = s.pend))

/-- `HOST_BYTE` (R190, R217): an ordinary byte joins the line buffer unchanged, preceded by what echo draws while echo
is on; a byte beyond `LINE_MAX` is refused; a terminator of an empty line with nothing remembered only echoes. Echo
before the byte's effect is the model's choice (assumption 18). -/
def Obligations.HostByteCollectsTheLine : Prop :=
  ∀ (s : State) (c : Byte), s.elmOk = true →
    (isTerminator c = false → s.lineBuf.length < s.inst.lineMax →
      exec (.hostByte c) s =
        .next
          { s with
            lineBuf := s.lineBuf ++ [c]
            hostOut := if s.sess.echo then s.hostOut ++ s.draws.echo else s.hostOut }) ∧
    (isTerminator c = false → s.inst.lineMax ≤ s.lineBuf.length → exec (.hostByte c) s = .refused .lineTooLong) ∧
    (isTerminator c = true → s.lineBuf = [] → s.lastCmd = [] →
      exec (.hostByte c) s =
        .next { s with hostOut := if s.sess.echo then s.hostOut ++ s.draws.echo else s.hostOut })

/-! ## Emulator: responses -/

/-- `FORMAT_FRAME_OUTPUT` of a single frame (R242, R244 to R246): header and length with headers on, the length digit
with headers off and DLC display on, then the valid bytes, cut at the length, separated and not followed by the
separator, then CR. The spacing is the spec's decision D26 (assumption 14); a standard identifier with no three digits
prints a free text (assumption 13). -/
def Obligations.FormatSingleFrame : Prop :=
  ∀ (s : State) (f : CanFrame) (sp header digit data : Bytes), s.elmOk = true → f.data.b0.toNat < 0x10 →
    sp = (if s.sess.whitespace then [0x20] else []) →
    header =
      (if s.sess.headers then
        (if f.ext then
          hexN 2 (f.id.toNat / 2 ^ 24) ++ sp ++ hexN 2 (f.id.toNat / 2 ^ 16) ++ sp ++ hexN 2 (f.id.toNat / 2 ^ 8) ++
            sp ++ hexN 2 f.id.toNat ++ sp
        else (if f.id.toNat < 0x1000 then hexN 3 f.id.toNat else s.draws.wideId) ++ sp) ++ hexN 2 f.dlc.val ++ sp
      else []) →
    digit = (if s.sess.headers = false ∧ s.sess.dlcDisplay = true then hexN 1 f.data.b0.toNat ++ sp else []) →
    data =
      ((((f.data.toList.take (min (f.data.b0.toNat + 1) f.dlc.val)).drop 1).map
        fun b => hexN 2 b.toNat).intersperse sp).flatten →
    exec (.formatFrameOutput f) s =
      .next { s with answers := s.answers ++ [.text (header ++ digit ++ data ++ [0x0D])] }

/-- `FORMAT_FRAME_OUTPUT` of a multi-frame payload (R242 to R244, R246): with the multi-frame mark enabled, the length
line of a literal first frame and the sequence nibble with its colon; the identifier with headers on; the bytes up to
the length, from byte 2 exactly when the length line was printed. The spacing is the spec's decision D26 (assumption
14); a standard identifier with no three digits prints a free text (assumption 13). -/
def Obligations.FormatMultiFrame : Prop :=
  ∀ (s : State) (f : CanFrame) (sp mark header data : Bytes) (first : Nat), s.elmOk = true →
    0x10 ≤ f.data.b0.toNat →
    sp = (if s.sess.whitespace then [0x20] else []) →
    mark =
      (if s.sess.headers = s.inst.mfPrefixWhenHeaders then
        (if f.data.b0 = 0x10 then hexN 1 0 ++ hexN 2 f.data.b1.toNat ++ [0x0D] else []) ++
          hexN 1 (f.data.b0.toNat % 16) ++ [0x3A, 0x20]
      else []) →
    header =
      (if s.sess.headers then
        (if f.ext then
          hexN 2 (f.id.toNat / 2 ^ 24) ++ sp ++ hexN 2 (f.id.toNat / 2 ^ 16) ++ sp ++ hexN 2 (f.id.toNat / 2 ^ 8) ++
            sp ++ hexN 2 f.id.toNat ++ sp
        else (if f.id.toNat < 0x1000 then hexN 3 f.id.toNat else s.draws.wideId) ++ sp)
      else []) →
    first = (if s.sess.headers = s.inst.mfPrefixWhenHeaders ∧ f.data.b0 = 0x10 then 2 else 0) →
    data = ((((f.data.toList.take f.dlc.val).drop first).map fun b => hexN 2 b.toNat).intersperse sp).flatten →
    exec (.formatFrameOutput f) s =
      .next { s with answers := s.answers ++ [.text (mark ++ header ++ data ++ [0x0D])] }

/-- `HANDLE_CAN_FRAME` (R82, R240): outside monitor mode an identifier outside the response range of the session's
addressing is discarded silently; an accepted frame needs the session lock, and is then processed. That the session's
addressing decides is the spec's decision D24 (assumption 14). -/
def Obligations.ResponseFilter : Prop :=
  ∀ (s : State) (f : CanFrame) (lo hi : Nat), s.elmOk = true →
    lo = (if s.sess.extended then 0x18DAF100 else 0x7E8) → hi = (if s.sess.extended then 0x18DAF1FF else 0x7EF) →
    (s.sess.monitor = false → f.id.toNat < lo ∨ hi < f.id.toNat → exec (.handleCanFrame f) s = .next s) ∧
    (s.sess.monitor = true ∨ (lo ≤ f.id.toNat ∧ f.id.toNat ≤ hi) →
      (s.draws.lockOk = false → exec (.handleCanFrame f) s = .next { s with log := s.log ++ [.lockTimeout] }) ∧
      (s.draws.lockOk = true → exec (.handleCanFrame f) s = exec (.processCanFrame f) s) ∧
      (s.draws.lockOk = true → s.sess.monitor = true ∨ f.data.b0 &&& 0xF0 ≠ 0x10 →
        ∃ t more, exec (.handleCanFrame f) s = .next t ∧
          t.hostOut = s.hostOut ++ formatFrame s.inst s.sess s.draws.wideId f ++ more))

/-- `PROCESS_CAN_FRAME` (R241, R247, R248): the line is written; outside monitor mode a first frame is answered with
flow control on `ELM_BUS`, whose failure is logged and changes nothing of the rest; outside monitor mode an outstanding
request is stamped and counted, its first response feeds the estimator when timing is adaptive, and a reached target
closes the exchange. A flow control that finds no room and does not give up holds with the rest, its line included, so
that the operation's bytes are contiguous (R297, assumption 26). Bookkeeping with no request outstanding is the spec's
decision D25 (assumption 14). -/
def Obligations.ProcessFrameBooksTheResponse : Prop :=
  ∀ (s : State) (f : CanFrame) (line : Bytes), s.elmOk = true →
    line = formatFrame s.inst s.sess s.draws.wideId f →
    (s.sess.monitor = true → exec (.processCanFrame f) s = .next { s with hostOut := s.hostOut ++ line }) ∧
    (s.sess.monitor = false →
      ∀ u : State,
      (if f.data.b0 &&& 0xF0 = 0x10 then
        s.transportOk = true ∧ ∃ r, s.sendResults s.inst.elmBus (flowFrame f.id s.sess.extended) r u
      else u = s) →
      ∃ t, exec (.processCanFrame f) s = .next t ∧
        t =
          { u with
            hostOut := t.hostOut, pend := t.pend, estAvg := t.estAvg
            sess := { s.sess with timeoutMs := t.sess.timeoutMs } } ∧
        (s.pend.valid = false →
          t.pend = s.pend ∧ t.estAvg = s.estAvg ∧ t.sess = s.sess ∧ t.hostOut = s.hostOut ++ line) ∧
        (s.pend.valid = true →
          (if s.pend.received = 0 ∧ s.sess.adaptive = true then
            t.estAvg.toNat = (s.estAvg.toNat * 7 + (s.clock - s.pend.tStart).toNat * 3) / 10 ∧
              t.sess.timeoutMs.toNat =
                clamp (t.estAvg.toNat * 4) s.inst.minTimeoutMs.toNat s.inst.maxTimeoutMs.toNat
          else t.estAvg = s.estAvg ∧ t.sess = s.sess) ∧
          (if s.pend.expected ≠ 0 ∧ s.pend.expected.toNat ≤ (s.pend.received + 1).toNat then
            t.pend = Pending.none ∧
              t.hostOut =
                s.hostOut ++ line ++ (if s.sess.linefeed then s.inst.prompt.on else s.inst.prompt.off)
          else
            t.pend = { s.pend with tLast := s.clock, processed := true, received := s.pend.received + 1 } ∧
              t.hostOut = s.hostOut ++ line))) ∧
    (s.sess.monitor = false → f.data.b0 &&& 0xF0 = 0x10 → s.transportOk = true → s.sendPasses s.inst.elmBus →
      s.sendWaits s.inst.elmBus →
      exec (.processCanFrame f) s =
        .next
          { s with
            held :=
              s.held ++
                [.send s.inst.elmBus (flowFrame f.id s.sess.extended) (.frame .direct f line)] })

/-- `SEND_FLOW_CONTROL` (R81, R247): the frame goes to `ELM_BUS` with the identifier of the session's addressing: XOR
8 for standard, the low byte replaced by 0xF0 for extended. A response identifier 0x7E8 to 0x7EF goes to 0x7E0 to
0x7E7, every one of the extended range to 0x18DAF1F0. A `SEND` that fails is logged, and nothing else comes of it; one that
finds no room and does not give up holds (assumption 5). The standard identifier follows C1 (assumption 14). -/
def Obligations.FlowControlAnswersTheResponder : Prop :=
  (∀ (s : State) (f : CanFrame) (target : BitVec 29), s.elmOk = true → s.transportOk = true →
    s.accepts s.inst.elmBus →
    target = (if s.sess.extended then (f.id &&& 0x1FFFFF00) ||| 0xF0 else f.id ^^^ 0x008) →
    exec (.sendFlowControl f) s =
      .next
        (s.setBus s.inst.elmBus
          { s.bus s.inst.elmBus with
            txq :=
              (s.bus s.inst.elmBus).txq ++
                [{ id := target, ext := s.sess.extended, rtr := false, dlc := 8
                   data := ⟨0x30, 0x00, 0x00, 0, 0, 0, 0, 0⟩ }] })) ∧
    (∀ (s : State) (f fc : CanFrame) (r : Int) (u : State), s.elmOk = true → s.transportOk = true →
      fc = flowFrame f.id s.sess.extended →
      (s.sendResults s.inst.elmBus fc r u → exec (.sendFlowControl f) s = .next u) ∧
      (s.sendPasses s.inst.elmBus → s.sendWaits s.inst.elmBus →
        exec (.sendFlowControl f) s = .next { s with held := s.held ++ [.send s.inst.elmBus fc .flow] })) ∧
    (∀ id : BitVec 29, 0x7E8 ≤ id.toNat → id.toNat ≤ 0x7EF → (flowTarget id false).toNat = id.toNat - 8) ∧
    ∀ id : BitVec 29, 0x18DAF100 ≤ id.toNat → id.toNat ≤ 0x18DAF1FF → flowTarget id true = 0x18DAF1F0

/-- `UPDATE_TIMEOUT` (R249, R65): the 7:3 average on natural numbers, truncating, which no wrap can disturb, and four
times the average, clamped to the bounds. The integer division and the width are the spec's decision D27 (assumption
14). -/
def Obligations.UpdateTimeoutAverages : Prop :=
  ∀ (s : State) (sample : Word32) (a : Nat), s.elmOk = true →
    s.inst.minTimeoutMs.toNat ≤ s.inst.maxTimeoutMs.toNat → a = (s.estAvg.toNat * 7 + sample.toNat * 3) / 10 →
    ∃ t, exec (.updateTimeout sample) s = .next t ∧
      t = { s with estAvg := t.estAvg, sess := { s.sess with timeoutMs := t.sess.timeoutMs } } ∧
      t.estAvg.toNat = a ∧
      t.sess.timeoutMs.toNat = max s.inst.minTimeoutMs.toNat (min (a * 4) s.inst.maxTimeoutMs.toNat)

/-- `CHECK_FOR_TIMEOUT` (R250): nothing in monitor mode or with no request; the lock; the 250 ms grace period after
the last response, with no estimator; with no response, more than the timeout since the request, the estimator once,
and the close-out. `CLOSE_OUT` (R251): the prompt in the linefeed form in force, and the pending request cleared. The
comparisons are the spec's decision D27 (assumption 14). -/
def Obligations.TimeoutPollClosesTheExchange : Prop :=
  ∀ (s : State) (line : Bytes) (a : Nat), s.elmOk = true →
    line = (if s.sess.linefeed then s.inst.prompt.on else s.inst.prompt.off) →
    a = (s.estAvg.toNat * 7 + (s.clock - s.pend.tStart).toNat * 3) / 10 →
    exec .closeOut s =
      .next
        { s with
          hostOut := s.hostOut ++ line
          pend :=
            { valid := false, service := 0, pid := 0, tStart := 0, tLast := 0, received := 0, expected := 0
              processed := false } } ∧
    (s.sess.monitor = true ∨ s.pend.valid = false → exec .checkForTimeout s = .next s) ∧
    (s.sess.monitor = false → s.pend.valid = true →
      (s.draws.lockOk = false → exec .checkForTimeout s = .next { s with log := s.log ++ [.lockTimeout] }) ∧
      (s.draws.lockOk = true → s.pend.received ≠ 0 →
        exec .checkForTimeout s =
          .next
            (if 250 ≤ (s.clock - s.pend.tLast).toNat then
              { s with pend := Pending.none, hostOut := s.hostOut ++ line }
            else s)) ∧
      (s.draws.lockOk = true → s.pend.received = 0 →
        ((s.clock - s.pend.tStart).toNat ≤ s.sess.timeoutMs.toNat → exec .checkForTimeout s = .next s) ∧
        (s.sess.timeoutMs.toNat < (s.clock - s.pend.tStart).toNat →
          exec .checkForTimeout s =
            .next
              (if s.pend.processed then { s with pend := Pending.none, hostOut := s.hostOut ++ line }
              else
                { s with
                  pend := Pending.none, hostOut := s.hostOut ++ line, estAvg := BitVec.ofNat 32 a
                  sess :=
                    { s.sess with
                      timeoutMs := BitVec.ofNat 32
                        (clamp (a * 4) s.inst.minTimeoutMs.toNat s.inst.maxTimeoutMs.toNat) } }))))

/-! ## Reset -/

/-- `RESET` (R310, R38, R312) completes from every state. The persisted record survives and gives the count and the
configurations; the enabled buses below the count are started; every other register takes its reset value, each engine
instance is constructed anew, and the output streams start empty, but for the starts and for what the sequence logs: the
subsystems whose creation failed, then the want of a valid record. The parameters and the clock are not the block's and
are kept. The order and the starts are the spec's decision D12 (assumption 14); the emptied streams and the kept fields
are assumption 12, an instance's handler state at construction assumption 11. -/
def Obligations.ResetLeavesTheTable : Prop :=
  ∀ s : State,
    ∃ t, exec .reset s = .next t ∧
      t.nvm = s.nvm ∧ t.transportOk = s.draws.transportOk ∧ t.elmOk = s.draws.elmOk ∧
      t.bridge = { a := 0, b := 0 } ∧ t.sess = s.inst.elmDefaults ∧ t.estAvg = s.inst.avgInit ∧
      t.pend = Pending.none ∧ t.lineBuf = [] ∧ t.lastCmd = [] ∧ t.arbPtr = 0 ∧
      t.engines = s.inst.engines.map (fun p => { current := p.initial, user := p.userInit, faulted := false }) ∧
      t.hostOut = [] ∧ t.answers = [] ∧ t.adapterOut = [] ∧ t.held = [] ∧
      t.log =
        (if s.draws.transportOk then [] else [.subsystemDisabled .transport]) ++
          (if s.draws.elmOk then [] else [.subsystemDisabled .elm]) ++
          (if s.nvm.valid = true ∧ s.nvm.busCount.toNat < s.inst.maxBusses then [] else [.persistFail]) ∧
      t.inst = s.inst ∧ t.clock = s.clock ∧ t.draws = s.draws ∧ t.script = s.script ∧ t.turn = s.turn ∧
      t.buses.length = s.inst.maxBusses ∧
      (s.nvm.valid = true → s.nvm.busCount.toNat < s.inst.maxBusses →
        t.numBusses = s.nvm.busCount ∧ (s.nvm.busConfig.length = s.inst.maxBusses → t.cfgs = s.nvm.busConfig)) ∧
      (s.nvm.valid = false ∨ s.inst.maxBusses ≤ s.nvm.busCount.toNat →
        t.numBusses = s.inst.defaultNumBusses ∧
          ∀ c ∈ t.cfgs, c = { enabled := false, listenOnly := false, bitrate := s.inst.defaultBitrate }) ∧
      ∀ b : BusIx, b.toNat < s.inst.maxBusses →
        t.bus b =
          (if s.draws.transportOk = true ∧ b.toNat < t.numBusses.toNat ∧ (t.bus b).cfg.enabled = true then
            { cfg := (t.bus b).cfg, ctrlRunning := true, ctrlRate := (t.bus b).cfg.bitrate, irqRegistered := true
              rxq := [], txq := [], rxOverflow := 0, txOverflow := 0, rxTask := .idle, canOut := []
              ctrlCmd := [.start (t.bus b).cfg.bitrate] }
          else
            { cfg := (t.bus b).cfg, ctrlRunning := false, ctrlRate := 0, irqRegistered := false
              rxq := [], txq := [], rxOverflow := 0, txOverflow := 0, rxTask := .idle, canOut := []
              ctrlCmd := [] })
end

