-- ==== Sys2Proof/Laws/Decode.lean ====
section
/-! SUPPORT. What the decoder answers on port `API`. -/

namespace Sys2Proof

/-- The Transport API commands: the first eighteen rows of the table (R73). -/
def apiInstr : Instr → Bool
  | .enable _ _ | .disable _ | .setBitrate _ _ | .setListenOnly _ _ | .isEnabled _ | .getBitrate _
  | .isListenOnly _ | .send _ _ | .receive _ | .getRxBufferedFrames _ | .getTxBufferedFrames _
  | .getRxOverflowCount _ | .getTxOverflowCount _ | .getNumBusses | .setNumBusses _ | .getStatistics _
  | .setBridge _ _ | .handleBridge _ _ => true
  | _ => false

theorem busOnly_api {mk bs i r} (hm : ∀ b, apiInstr (mk b) = true) (h : busOnly mk bs = .ok (i, r))
    : apiInstr i = true := by
  cases bs <;> cases h; exact hm _

theorem busFrame_api {mk bs i r} (hm : ∀ b f, apiInstr (mk b f) = true) (h : busFrame mk bs = .ok (i, r))
    : apiInstr i = true := by
  cases bs with
  | nil => cases h
  | cons b bs =>
    unfold busFrame at h
    dsimp only at h
    split at h <;> cases h; exact hm _ _

theorem busArg_api {mk bs i r} (hm : ∀ b w i, mk b w = .ok i → apiInstr i = true)
    (h : busArg mk bs = .ok (i, r)) : apiInstr i = true := by
  cases bs with
  | nil => cases h
  | cons b bs =>
    unfold busArg at h
    dsimp only at h
    split at h
    · split at h <;> cases h
      exact hm _ _ _ (by assumption)
    · cases h

theorem map_api {α} {o : Except DecodeError α} {k : α → Instr} {i} (hk : ∀ a, apiInstr (k a) = true)
    (h : o.map k = .ok i) : apiInstr i = true := by
  cases o <;> cases h; exact hk _

/-- Whatever decodes on port `API` is a Transport API command. -/
theorem decode_api {bs i r} (h : decode .api bs = .ok (i, r)) : apiInstr i = true := by
  cases bs with
  | nil => cases h
  | cons op rest =>
    simp only [decode, decodeApi] at h
    unfold decodeOperands at h
    split at h
    all_goals first
      | exact busOnly_api (fun _ => rfl) h
      | exact busFrame_api (fun _ _ => rfl) h
      | exact busArg_api (fun _ _ _ h => by cases h; rfl) h
      | exact busArg_api (fun _ _ _ h => map_api (fun _ => rfl) h) h
      | (cases h; rfl)
      | skip
    · split at h
      · split at h <;> cases h; rfl
      · cases h
    · cases h

end Sys2Proof
end

