-- ==== Sys2Proof/Laws/State.lean ====
section
/-! SUPPORT. One lemma for each field and each update of State, true by rfl: no later proof unfolds a record
update. -/

namespace Sys2Proof.Machine

variable (s : State)

/-! ### `setBus` -/

@[simp] theorem State.setBus_inst (b : BusIx) (x : Bus) : (s.setBus b x).inst = s.inst := rfl
@[simp] theorem State.setBus_numBusses (b : BusIx) (x : Bus) : (s.setBus b x).numBusses = s.numBusses := rfl
@[simp] theorem State.setBus_buses (b : BusIx) (x : Bus) : (s.setBus b x).buses = s.buses.set b.toNat x := rfl
@[simp] theorem State.setBus_bridge (b : BusIx) (x : Bus) : (s.setBus b x).bridge = s.bridge := rfl
@[simp] theorem State.setBus_sess (b : BusIx) (x : Bus) : (s.setBus b x).sess = s.sess := rfl
@[simp] theorem State.setBus_estAvg (b : BusIx) (x : Bus) : (s.setBus b x).estAvg = s.estAvg := rfl
@[simp] theorem State.setBus_pend (b : BusIx) (x : Bus) : (s.setBus b x).pend = s.pend := rfl
@[simp] theorem State.setBus_lineBuf (b : BusIx) (x : Bus) : (s.setBus b x).lineBuf = s.lineBuf := rfl
@[simp] theorem State.setBus_lastCmd (b : BusIx) (x : Bus) : (s.setBus b x).lastCmd = s.lastCmd := rfl
@[simp] theorem State.setBus_engines (b : BusIx) (x : Bus) : (s.setBus b x).engines = s.engines := rfl
@[simp] theorem State.setBus_arbPtr (b : BusIx) (x : Bus) : (s.setBus b x).arbPtr = s.arbPtr := rfl
@[simp] theorem State.setBus_nvm (b : BusIx) (x : Bus) : (s.setBus b x).nvm = s.nvm := rfl
@[simp] theorem State.setBus_transportOk (b : BusIx) (x : Bus) : (s.setBus b x).transportOk = s.transportOk := rfl
@[simp] theorem State.setBus_elmOk (b : BusIx) (x : Bus) : (s.setBus b x).elmOk = s.elmOk := rfl
@[simp] theorem State.setBus_clock (b : BusIx) (x : Bus) : (s.setBus b x).clock = s.clock := rfl
@[simp] theorem State.setBus_held (b : BusIx) (x : Bus) : (s.setBus b x).held = s.held := rfl
@[simp] theorem State.setBus_hostOut (b : BusIx) (x : Bus) : (s.setBus b x).hostOut = s.hostOut := rfl
@[simp] theorem State.setBus_log (b : BusIx) (x : Bus) : (s.setBus b x).log = s.log := rfl
@[simp] theorem State.setBus_answers (b : BusIx) (x : Bus) : (s.setBus b x).answers = s.answers := rfl
@[simp] theorem State.setBus_adapterOut (b : BusIx) (x : Bus) : (s.setBus b x).adapterOut = s.adapterOut := rfl
@[simp] theorem State.setBus_draws (b : BusIx) (x : Bus) : (s.setBus b x).draws = s.draws := rfl
@[simp] theorem State.setBus_script (b : BusIx) (x : Bus) : (s.setBus b x).script = s.script := rfl
@[simp] theorem State.setBus_turn (b : BusIx) (x : Bus) : (s.setBus b x).turn = s.turn := rfl

/-! ### `emit` -/

@[simp] theorem State.emit_inst (bs : Bytes) : (s.emit bs).inst = s.inst := rfl
@[simp] theorem State.emit_numBusses (bs : Bytes) : (s.emit bs).numBusses = s.numBusses := rfl
@[simp] theorem State.emit_buses (bs : Bytes) : (s.emit bs).buses = s.buses := rfl
@[simp] theorem State.emit_bridge (bs : Bytes) : (s.emit bs).bridge = s.bridge := rfl
@[simp] theorem State.emit_sess (bs : Bytes) : (s.emit bs).sess = s.sess := rfl
@[simp] theorem State.emit_estAvg (bs : Bytes) : (s.emit bs).estAvg = s.estAvg := rfl
@[simp] theorem State.emit_pend (bs : Bytes) : (s.emit bs).pend = s.pend := rfl
@[simp] theorem State.emit_lineBuf (bs : Bytes) : (s.emit bs).lineBuf = s.lineBuf := rfl
@[simp] theorem State.emit_lastCmd (bs : Bytes) : (s.emit bs).lastCmd = s.lastCmd := rfl
@[simp] theorem State.emit_engines (bs : Bytes) : (s.emit bs).engines = s.engines := rfl
@[simp] theorem State.emit_arbPtr (bs : Bytes) : (s.emit bs).arbPtr = s.arbPtr := rfl
@[simp] theorem State.emit_nvm (bs : Bytes) : (s.emit bs).nvm = s.nvm := rfl
@[simp] theorem State.emit_transportOk (bs : Bytes) : (s.emit bs).transportOk = s.transportOk := rfl
@[simp] theorem State.emit_elmOk (bs : Bytes) : (s.emit bs).elmOk = s.elmOk := rfl
@[simp] theorem State.emit_clock (bs : Bytes) : (s.emit bs).clock = s.clock := rfl
@[simp] theorem State.emit_held (bs : Bytes) : (s.emit bs).held = s.held := rfl
@[simp] theorem State.emit_hostOut (bs : Bytes) : (s.emit bs).hostOut = s.hostOut ++ bs := rfl
@[simp] theorem State.emit_log (bs : Bytes) : (s.emit bs).log = s.log := rfl
@[simp] theorem State.emit_answers (bs : Bytes) : (s.emit bs).answers = s.answers := rfl
@[simp] theorem State.emit_adapterOut (bs : Bytes) : (s.emit bs).adapterOut = s.adapterOut := rfl
@[simp] theorem State.emit_draws (bs : Bytes) : (s.emit bs).draws = s.draws := rfl
@[simp] theorem State.emit_script (bs : Bytes) : (s.emit bs).script = s.script := rfl
@[simp] theorem State.emit_turn (bs : Bytes) : (s.emit bs).turn = s.turn := rfl

/-! ### `logEvent` -/

@[simp] theorem State.logEvent_inst (e : LogEvent) : (s.logEvent e).inst = s.inst := rfl
@[simp] theorem State.logEvent_numBusses (e : LogEvent) : (s.logEvent e).numBusses = s.numBusses := rfl
@[simp] theorem State.logEvent_buses (e : LogEvent) : (s.logEvent e).buses = s.buses := rfl
@[simp] theorem State.logEvent_bridge (e : LogEvent) : (s.logEvent e).bridge = s.bridge := rfl
@[simp] theorem State.logEvent_sess (e : LogEvent) : (s.logEvent e).sess = s.sess := rfl
@[simp] theorem State.logEvent_estAvg (e : LogEvent) : (s.logEvent e).estAvg = s.estAvg := rfl
@[simp] theorem State.logEvent_pend (e : LogEvent) : (s.logEvent e).pend = s.pend := rfl
@[simp] theorem State.logEvent_lineBuf (e : LogEvent) : (s.logEvent e).lineBuf = s.lineBuf := rfl
@[simp] theorem State.logEvent_lastCmd (e : LogEvent) : (s.logEvent e).lastCmd = s.lastCmd := rfl
@[simp] theorem State.logEvent_engines (e : LogEvent) : (s.logEvent e).engines = s.engines := rfl
@[simp] theorem State.logEvent_arbPtr (e : LogEvent) : (s.logEvent e).arbPtr = s.arbPtr := rfl
@[simp] theorem State.logEvent_nvm (e : LogEvent) : (s.logEvent e).nvm = s.nvm := rfl
@[simp] theorem State.logEvent_transportOk (e : LogEvent) : (s.logEvent e).transportOk = s.transportOk := rfl
@[simp] theorem State.logEvent_elmOk (e : LogEvent) : (s.logEvent e).elmOk = s.elmOk := rfl
@[simp] theorem State.logEvent_clock (e : LogEvent) : (s.logEvent e).clock = s.clock := rfl
@[simp] theorem State.logEvent_held (e : LogEvent) : (s.logEvent e).held = s.held := rfl
@[simp] theorem State.logEvent_hostOut (e : LogEvent) : (s.logEvent e).hostOut = s.hostOut := rfl
@[simp] theorem State.logEvent_log (e : LogEvent) : (s.logEvent e).log = s.log ++ [e] := rfl
@[simp] theorem State.logEvent_answers (e : LogEvent) : (s.logEvent e).answers = s.answers := rfl
@[simp] theorem State.logEvent_adapterOut (e : LogEvent) : (s.logEvent e).adapterOut = s.adapterOut := rfl
@[simp] theorem State.logEvent_draws (e : LogEvent) : (s.logEvent e).draws = s.draws := rfl
@[simp] theorem State.logEvent_script (e : LogEvent) : (s.logEvent e).script = s.script := rfl
@[simp] theorem State.logEvent_turn (e : LogEvent) : (s.logEvent e).turn = s.turn := rfl

/-! ### `answer` -/

@[simp] theorem State.answer_inst (a : Answer) : (s.answer a).inst = s.inst := rfl
@[simp] theorem State.answer_numBusses (a : Answer) : (s.answer a).numBusses = s.numBusses := rfl
@[simp] theorem State.answer_buses (a : Answer) : (s.answer a).buses = s.buses := rfl
@[simp] theorem State.answer_bridge (a : Answer) : (s.answer a).bridge = s.bridge := rfl
@[simp] theorem State.answer_sess (a : Answer) : (s.answer a).sess = s.sess := rfl
@[simp] theorem State.answer_estAvg (a : Answer) : (s.answer a).estAvg = s.estAvg := rfl
@[simp] theorem State.answer_pend (a : Answer) : (s.answer a).pend = s.pend := rfl
@[simp] theorem State.answer_lineBuf (a : Answer) : (s.answer a).lineBuf = s.lineBuf := rfl
@[simp] theorem State.answer_lastCmd (a : Answer) : (s.answer a).lastCmd = s.lastCmd := rfl
@[simp] theorem State.answer_engines (a : Answer) : (s.answer a).engines = s.engines := rfl
@[simp] theorem State.answer_arbPtr (a : Answer) : (s.answer a).arbPtr = s.arbPtr := rfl
@[simp] theorem State.answer_nvm (a : Answer) : (s.answer a).nvm = s.nvm := rfl
@[simp] theorem State.answer_transportOk (a : Answer) : (s.answer a).transportOk = s.transportOk := rfl
@[simp] theorem State.answer_elmOk (a : Answer) : (s.answer a).elmOk = s.elmOk := rfl
@[simp] theorem State.answer_clock (a : Answer) : (s.answer a).clock = s.clock := rfl
@[simp] theorem State.answer_held (a : Answer) : (s.answer a).held = s.held := rfl
@[simp] theorem State.answer_hostOut (a : Answer) : (s.answer a).hostOut = s.hostOut := rfl
@[simp] theorem State.answer_log (a : Answer) : (s.answer a).log = s.log := rfl
@[simp] theorem State.answer_answers (a : Answer) : (s.answer a).answers = s.answers ++ [a] := rfl
@[simp] theorem State.answer_adapterOut (a : Answer) : (s.answer a).adapterOut = s.adapterOut := rfl
@[simp] theorem State.answer_draws (a : Answer) : (s.answer a).draws = s.draws := rfl
@[simp] theorem State.answer_script (a : Answer) : (s.answer a).script = s.script := rfl
@[simp] theorem State.answer_turn (a : Answer) : (s.answer a).turn = s.turn := rfl

/-! ### `setRxTask` -/

@[simp] theorem State.setRxTask_inst (b : BusIx) (p : RxPhase) : (s.setRxTask b p).inst = s.inst := rfl
@[simp] theorem State.setRxTask_numBusses (b : BusIx) (p : RxPhase) : (s.setRxTask b p).numBusses = s.numBusses := rfl
@[simp] theorem State.setRxTask_buses (b : BusIx) (p : RxPhase) : (s.setRxTask b p).buses = s.buses.set b.toNat { s.bus b with rxTask := p } := rfl
@[simp] theorem State.setRxTask_bridge (b : BusIx) (p : RxPhase) : (s.setRxTask b p).bridge = s.bridge := rfl
@[simp] theorem State.setRxTask_sess (b : BusIx) (p : RxPhase) : (s.setRxTask b p).sess = s.sess := rfl
@[simp] theorem State.setRxTask_estAvg (b : BusIx) (p : RxPhase) : (s.setRxTask b p).estAvg = s.estAvg := rfl
@[simp] theorem State.setRxTask_pend (b : BusIx) (p : RxPhase) : (s.setRxTask b p).pend = s.pend := rfl
@[simp] theorem State.setRxTask_lineBuf (b : BusIx) (p : RxPhase) : (s.setRxTask b p).lineBuf = s.lineBuf := rfl
@[simp] theorem State.setRxTask_lastCmd (b : BusIx) (p : RxPhase) : (s.setRxTask b p).lastCmd = s.lastCmd := rfl
@[simp] theorem State.setRxTask_engines (b : BusIx) (p : RxPhase) : (s.setRxTask b p).engines = s.engines := rfl
@[simp] theorem State.setRxTask_arbPtr (b : BusIx) (p : RxPhase) : (s.setRxTask b p).arbPtr = s.arbPtr := rfl
@[simp] theorem State.setRxTask_nvm (b : BusIx) (p : RxPhase) : (s.setRxTask b p).nvm = s.nvm := rfl
@[simp] theorem State.setRxTask_transportOk (b : BusIx) (p : RxPhase) : (s.setRxTask b p).transportOk = s.transportOk := rfl
@[simp] theorem State.setRxTask_elmOk (b : BusIx) (p : RxPhase) : (s.setRxTask b p).elmOk = s.elmOk := rfl
@[simp] theorem State.setRxTask_clock (b : BusIx) (p : RxPhase) : (s.setRxTask b p).clock = s.clock := rfl
@[simp] theorem State.setRxTask_held (b : BusIx) (p : RxPhase) : (s.setRxTask b p).held = s.held := rfl
@[simp] theorem State.setRxTask_hostOut (b : BusIx) (p : RxPhase) : (s.setRxTask b p).hostOut = s.hostOut := rfl
@[simp] theorem State.setRxTask_log (b : BusIx) (p : RxPhase) : (s.setRxTask b p).log = s.log := rfl
@[simp] theorem State.setRxTask_answers (b : BusIx) (p : RxPhase) : (s.setRxTask b p).answers = s.answers := rfl
@[simp] theorem State.setRxTask_adapterOut (b : BusIx) (p : RxPhase) : (s.setRxTask b p).adapterOut = s.adapterOut := rfl
@[simp] theorem State.setRxTask_draws (b : BusIx) (p : RxPhase) : (s.setRxTask b p).draws = s.draws := rfl
@[simp] theorem State.setRxTask_script (b : BusIx) (p : RxPhase) : (s.setRxTask b p).script = s.script := rfl
@[simp] theorem State.setRxTask_turn (b : BusIx) (p : RxPhase) : (s.setRxTask b p).turn = s.turn := rfl

/-! ### `deliver` -/

@[simp] theorem State.deliver_inst (b : BusIx) (f : CanFrame) : (s.deliver b f).inst = s.inst := rfl
@[simp] theorem State.deliver_numBusses (b : BusIx) (f : CanFrame) : (s.deliver b f).numBusses = s.numBusses := rfl
@[simp] theorem State.deliver_buses (b : BusIx) (f : CanFrame) : (s.deliver b f).buses = s.buses.set b.toNat { s.bus b with rxTask := .idle } := rfl
@[simp] theorem State.deliver_bridge (b : BusIx) (f : CanFrame) : (s.deliver b f).bridge = s.bridge := rfl
@[simp] theorem State.deliver_sess (b : BusIx) (f : CanFrame) : (s.deliver b f).sess = s.sess := rfl
@[simp] theorem State.deliver_estAvg (b : BusIx) (f : CanFrame) : (s.deliver b f).estAvg = s.estAvg := rfl
@[simp] theorem State.deliver_pend (b : BusIx) (f : CanFrame) : (s.deliver b f).pend = s.pend := rfl
@[simp] theorem State.deliver_lineBuf (b : BusIx) (f : CanFrame) : (s.deliver b f).lineBuf = s.lineBuf := rfl
@[simp] theorem State.deliver_lastCmd (b : BusIx) (f : CanFrame) : (s.deliver b f).lastCmd = s.lastCmd := rfl
@[simp] theorem State.deliver_engines (b : BusIx) (f : CanFrame) : (s.deliver b f).engines = s.engines := rfl
@[simp] theorem State.deliver_arbPtr (b : BusIx) (f : CanFrame) : (s.deliver b f).arbPtr = s.arbPtr := rfl
@[simp] theorem State.deliver_nvm (b : BusIx) (f : CanFrame) : (s.deliver b f).nvm = s.nvm := rfl
@[simp] theorem State.deliver_transportOk (b : BusIx) (f : CanFrame) : (s.deliver b f).transportOk = s.transportOk := rfl
@[simp] theorem State.deliver_elmOk (b : BusIx) (f : CanFrame) : (s.deliver b f).elmOk = s.elmOk := rfl
@[simp] theorem State.deliver_clock (b : BusIx) (f : CanFrame) : (s.deliver b f).clock = s.clock := rfl
@[simp] theorem State.deliver_held (b : BusIx) (f : CanFrame) : (s.deliver b f).held = s.held := rfl
@[simp] theorem State.deliver_hostOut (b : BusIx) (f : CanFrame) : (s.deliver b f).hostOut = s.hostOut := rfl
@[simp] theorem State.deliver_log (b : BusIx) (f : CanFrame) : (s.deliver b f).log = s.log := rfl
@[simp] theorem State.deliver_answers (b : BusIx) (f : CanFrame) : (s.deliver b f).answers = s.answers := rfl
@[simp] theorem State.deliver_adapterOut (b : BusIx) (f : CanFrame) : (s.deliver b f).adapterOut = s.adapterOut ++ [(b, f)] := rfl
@[simp] theorem State.deliver_draws (b : BusIx) (f : CanFrame) : (s.deliver b f).draws = s.draws := rfl
@[simp] theorem State.deliver_script (b : BusIx) (f : CanFrame) : (s.deliver b f).script = s.script := rfl
@[simp] theorem State.deliver_turn (b : BusIx) (f : CanFrame) : (s.deliver b f).turn = s.turn := rfl

/-! ### `enqTx` -/

@[simp] theorem State.enqTx_inst (b : BusIx) (f : CanFrame) : (s.enqTx b f).inst = s.inst := rfl
@[simp] theorem State.enqTx_numBusses (b : BusIx) (f : CanFrame) : (s.enqTx b f).numBusses = s.numBusses := rfl
@[simp] theorem State.enqTx_buses (b : BusIx) (f : CanFrame) : (s.enqTx b f).buses = s.buses.set b.toNat { s.bus b with txq := (s.bus b).txq ++ [f] } := rfl
@[simp] theorem State.enqTx_bridge (b : BusIx) (f : CanFrame) : (s.enqTx b f).bridge = s.bridge := rfl
@[simp] theorem State.enqTx_sess (b : BusIx) (f : CanFrame) : (s.enqTx b f).sess = s.sess := rfl
@[simp] theorem State.enqTx_estAvg (b : BusIx) (f : CanFrame) : (s.enqTx b f).estAvg = s.estAvg := rfl
@[simp] theorem State.enqTx_pend (b : BusIx) (f : CanFrame) : (s.enqTx b f).pend = s.pend := rfl
@[simp] theorem State.enqTx_lineBuf (b : BusIx) (f : CanFrame) : (s.enqTx b f).lineBuf = s.lineBuf := rfl
@[simp] theorem State.enqTx_lastCmd (b : BusIx) (f : CanFrame) : (s.enqTx b f).lastCmd = s.lastCmd := rfl
@[simp] theorem State.enqTx_engines (b : BusIx) (f : CanFrame) : (s.enqTx b f).engines = s.engines := rfl
@[simp] theorem State.enqTx_arbPtr (b : BusIx) (f : CanFrame) : (s.enqTx b f).arbPtr = s.arbPtr := rfl
@[simp] theorem State.enqTx_nvm (b : BusIx) (f : CanFrame) : (s.enqTx b f).nvm = s.nvm := rfl
@[simp] theorem State.enqTx_transportOk (b : BusIx) (f : CanFrame) : (s.enqTx b f).transportOk = s.transportOk := rfl
@[simp] theorem State.enqTx_elmOk (b : BusIx) (f : CanFrame) : (s.enqTx b f).elmOk = s.elmOk := rfl
@[simp] theorem State.enqTx_clock (b : BusIx) (f : CanFrame) : (s.enqTx b f).clock = s.clock := rfl
@[simp] theorem State.enqTx_held (b : BusIx) (f : CanFrame) : (s.enqTx b f).held = s.held := rfl
@[simp] theorem State.enqTx_hostOut (b : BusIx) (f : CanFrame) : (s.enqTx b f).hostOut = s.hostOut := rfl
@[simp] theorem State.enqTx_log (b : BusIx) (f : CanFrame) : (s.enqTx b f).log = s.log := rfl
@[simp] theorem State.enqTx_answers (b : BusIx) (f : CanFrame) : (s.enqTx b f).answers = s.answers := rfl
@[simp] theorem State.enqTx_adapterOut (b : BusIx) (f : CanFrame) : (s.enqTx b f).adapterOut = s.adapterOut := rfl
@[simp] theorem State.enqTx_draws (b : BusIx) (f : CanFrame) : (s.enqTx b f).draws = s.draws := rfl
@[simp] theorem State.enqTx_script (b : BusIx) (f : CanFrame) : (s.enqTx b f).script = s.script := rfl
@[simp] theorem State.enqTx_turn (b : BusIx) (f : CanFrame) : (s.enqTx b f).turn = s.turn := rfl

/-! ### `dropTx` -/

@[simp] theorem State.dropTx_inst (b : BusIx) : (s.dropTx b).inst = s.inst := rfl
@[simp] theorem State.dropTx_numBusses (b : BusIx) : (s.dropTx b).numBusses = s.numBusses := rfl
@[simp] theorem State.dropTx_buses (b : BusIx) : (s.dropTx b).buses = s.buses.set b.toNat { s.bus b with txOverflow := (s.bus b).txOverflow + 1 } := rfl
@[simp] theorem State.dropTx_bridge (b : BusIx) : (s.dropTx b).bridge = s.bridge := rfl
@[simp] theorem State.dropTx_sess (b : BusIx) : (s.dropTx b).sess = s.sess := rfl
@[simp] theorem State.dropTx_estAvg (b : BusIx) : (s.dropTx b).estAvg = s.estAvg := rfl
@[simp] theorem State.dropTx_pend (b : BusIx) : (s.dropTx b).pend = s.pend := rfl
@[simp] theorem State.dropTx_lineBuf (b : BusIx) : (s.dropTx b).lineBuf = s.lineBuf := rfl
@[simp] theorem State.dropTx_lastCmd (b : BusIx) : (s.dropTx b).lastCmd = s.lastCmd := rfl
@[simp] theorem State.dropTx_engines (b : BusIx) : (s.dropTx b).engines = s.engines := rfl
@[simp] theorem State.dropTx_arbPtr (b : BusIx) : (s.dropTx b).arbPtr = s.arbPtr := rfl
@[simp] theorem State.dropTx_nvm (b : BusIx) : (s.dropTx b).nvm = s.nvm := rfl
@[simp] theorem State.dropTx_transportOk (b : BusIx) : (s.dropTx b).transportOk = s.transportOk := rfl
@[simp] theorem State.dropTx_elmOk (b : BusIx) : (s.dropTx b).elmOk = s.elmOk := rfl
@[simp] theorem State.dropTx_clock (b : BusIx) : (s.dropTx b).clock = s.clock := rfl
@[simp] theorem State.dropTx_held (b : BusIx) : (s.dropTx b).held = s.held := rfl
@[simp] theorem State.dropTx_hostOut (b : BusIx) : (s.dropTx b).hostOut = s.hostOut := rfl
@[simp] theorem State.dropTx_log (b : BusIx) : (s.dropTx b).log = s.log ++ [.queueFull b] := rfl
@[simp] theorem State.dropTx_answers (b : BusIx) : (s.dropTx b).answers = s.answers := rfl
@[simp] theorem State.dropTx_adapterOut (b : BusIx) : (s.dropTx b).adapterOut = s.adapterOut := rfl
@[simp] theorem State.dropTx_draws (b : BusIx) : (s.dropTx b).draws = s.draws := rfl
@[simp] theorem State.dropTx_script (b : BusIx) : (s.dropTx b).script = s.script := rfl
@[simp] theorem State.dropTx_turn (b : BusIx) : (s.dropTx b).turn = s.turn := rfl

/-! ### `closeOut` -/

@[simp] theorem State.closeOut_inst : (s.closeOut).inst = s.inst := rfl
@[simp] theorem State.closeOut_numBusses : (s.closeOut).numBusses = s.numBusses := rfl
@[simp] theorem State.closeOut_buses : (s.closeOut).buses = s.buses := rfl
@[simp] theorem State.closeOut_bridge : (s.closeOut).bridge = s.bridge := rfl
@[simp] theorem State.closeOut_sess : (s.closeOut).sess = s.sess := rfl
@[simp] theorem State.closeOut_estAvg : (s.closeOut).estAvg = s.estAvg := rfl
@[simp] theorem State.closeOut_pend : (s.closeOut).pend = Pending.none := rfl
@[simp] theorem State.closeOut_lineBuf : (s.closeOut).lineBuf = s.lineBuf := rfl
@[simp] theorem State.closeOut_lastCmd : (s.closeOut).lastCmd = s.lastCmd := rfl
@[simp] theorem State.closeOut_engines : (s.closeOut).engines = s.engines := rfl
@[simp] theorem State.closeOut_arbPtr : (s.closeOut).arbPtr = s.arbPtr := rfl
@[simp] theorem State.closeOut_nvm : (s.closeOut).nvm = s.nvm := rfl
@[simp] theorem State.closeOut_transportOk : (s.closeOut).transportOk = s.transportOk := rfl
@[simp] theorem State.closeOut_elmOk : (s.closeOut).elmOk = s.elmOk := rfl
@[simp] theorem State.closeOut_clock : (s.closeOut).clock = s.clock := rfl
@[simp] theorem State.closeOut_held : (s.closeOut).held = s.held := rfl
@[simp] theorem State.closeOut_hostOut : (s.closeOut).hostOut = s.hostOut ++ promptText s.inst s.sess.linefeed := rfl
@[simp] theorem State.closeOut_log : (s.closeOut).log = s.log := rfl
@[simp] theorem State.closeOut_answers : (s.closeOut).answers = s.answers := rfl
@[simp] theorem State.closeOut_adapterOut : (s.closeOut).adapterOut = s.adapterOut := rfl
@[simp] theorem State.closeOut_draws : (s.closeOut).draws = s.draws := rfl
@[simp] theorem State.closeOut_script : (s.closeOut).script = s.script := rfl
@[simp] theorem State.closeOut_turn : (s.closeOut).turn = s.turn := rfl

/-! ### `updateTimeout` -/

@[simp] theorem State.updateTimeout_inst (v : Word32) : (s.updateTimeout v).inst = s.inst := rfl
@[simp] theorem State.updateTimeout_numBusses (v : Word32) : (s.updateTimeout v).numBusses = s.numBusses := rfl
@[simp] theorem State.updateTimeout_buses (v : Word32) : (s.updateTimeout v).buses = s.buses := rfl
@[simp] theorem State.updateTimeout_bridge (v : Word32) : (s.updateTimeout v).bridge = s.bridge := rfl
@[simp] theorem State.updateTimeout_sess (v : Word32) : (s.updateTimeout v).sess = { s.sess with timeoutMs := nextTimeout s.inst (nextAverage s.estAvg v) } := rfl
@[simp] theorem State.updateTimeout_estAvg (v : Word32) : (s.updateTimeout v).estAvg = BitVec.ofNat 32 (nextAverage s.estAvg v) := rfl
@[simp] theorem State.updateTimeout_pend (v : Word32) : (s.updateTimeout v).pend = s.pend := rfl
@[simp] theorem State.updateTimeout_lineBuf (v : Word32) : (s.updateTimeout v).lineBuf = s.lineBuf := rfl
@[simp] theorem State.updateTimeout_lastCmd (v : Word32) : (s.updateTimeout v).lastCmd = s.lastCmd := rfl
@[simp] theorem State.updateTimeout_engines (v : Word32) : (s.updateTimeout v).engines = s.engines := rfl
@[simp] theorem State.updateTimeout_arbPtr (v : Word32) : (s.updateTimeout v).arbPtr = s.arbPtr := rfl
@[simp] theorem State.updateTimeout_nvm (v : Word32) : (s.updateTimeout v).nvm = s.nvm := rfl
@[simp] theorem State.updateTimeout_transportOk (v : Word32) : (s.updateTimeout v).transportOk = s.transportOk := rfl
@[simp] theorem State.updateTimeout_elmOk (v : Word32) : (s.updateTimeout v).elmOk = s.elmOk := rfl
@[simp] theorem State.updateTimeout_clock (v : Word32) : (s.updateTimeout v).clock = s.clock := rfl
@[simp] theorem State.updateTimeout_held (v : Word32) : (s.updateTimeout v).held = s.held := rfl
@[simp] theorem State.updateTimeout_hostOut (v : Word32) : (s.updateTimeout v).hostOut = s.hostOut := rfl
@[simp] theorem State.updateTimeout_log (v : Word32) : (s.updateTimeout v).log = s.log := rfl
@[simp] theorem State.updateTimeout_answers (v : Word32) : (s.updateTimeout v).answers = s.answers := rfl
@[simp] theorem State.updateTimeout_adapterOut (v : Word32) : (s.updateTimeout v).adapterOut = s.adapterOut := rfl
@[simp] theorem State.updateTimeout_draws (v : Word32) : (s.updateTimeout v).draws = s.draws := rfl
@[simp] theorem State.updateTimeout_script (v : Word32) : (s.updateTimeout v).script = s.script := rfl
@[simp] theorem State.updateTimeout_turn (v : Word32) : (s.updateTimeout v).turn = s.turn := rfl

/-! ### `beginStep` -/

@[simp] theorem State.beginStep_inst : (s.beginStep).inst = s.inst := rfl
@[simp] theorem State.beginStep_numBusses : (s.beginStep).numBusses = s.numBusses := rfl
@[simp] theorem State.beginStep_buses : (s.beginStep).buses = s.buses := rfl
@[simp] theorem State.beginStep_bridge : (s.beginStep).bridge = s.bridge := rfl
@[simp] theorem State.beginStep_sess : (s.beginStep).sess = s.sess := rfl
@[simp] theorem State.beginStep_estAvg : (s.beginStep).estAvg = s.estAvg := rfl
@[simp] theorem State.beginStep_pend : (s.beginStep).pend = s.pend := rfl
@[simp] theorem State.beginStep_lineBuf : (s.beginStep).lineBuf = s.lineBuf := rfl
@[simp] theorem State.beginStep_lastCmd : (s.beginStep).lastCmd = s.lastCmd := rfl
@[simp] theorem State.beginStep_engines : (s.beginStep).engines = s.engines := rfl
@[simp] theorem State.beginStep_arbPtr : (s.beginStep).arbPtr = s.arbPtr := rfl
@[simp] theorem State.beginStep_nvm : (s.beginStep).nvm = s.nvm := rfl
@[simp] theorem State.beginStep_transportOk : (s.beginStep).transportOk = s.transportOk := rfl
@[simp] theorem State.beginStep_elmOk : (s.beginStep).elmOk = s.elmOk := rfl
@[simp] theorem State.beginStep_clock : (s.beginStep).clock = s.clock + s.nextStimulus.draws.elapsed := rfl
@[simp] theorem State.beginStep_held : (s.beginStep).held = s.held := rfl
@[simp] theorem State.beginStep_hostOut : (s.beginStep).hostOut = s.hostOut := rfl
@[simp] theorem State.beginStep_log : (s.beginStep).log = s.log := rfl
@[simp] theorem State.beginStep_answers : (s.beginStep).answers = s.answers := rfl
@[simp] theorem State.beginStep_adapterOut : (s.beginStep).adapterOut = s.adapterOut := rfl
@[simp] theorem State.beginStep_draws : (s.beginStep).draws = s.nextStimulus.draws := rfl
@[simp] theorem State.beginStep_script : (s.beginStep).script = s.script.tail := rfl
@[simp] theorem State.beginStep_turn : (s.beginStep).turn = s.turn + 1 := rfl

/-! ### `clearVolatile` -/

@[simp] theorem State.clearVolatile_inst : (s.clearVolatile).inst = s.inst := rfl
@[simp] theorem State.clearVolatile_numBusses : (s.clearVolatile).numBusses = s.numBusses := rfl
@[simp] theorem State.clearVolatile_buses : (s.clearVolatile).buses = List.replicate s.inst.maxBusses (Bus.fresh (defaultCfg s.inst)) := rfl
@[simp] theorem State.clearVolatile_bridge : (s.clearVolatile).bridge = { a := 0, b := 0 } := rfl
@[simp] theorem State.clearVolatile_sess : (s.clearVolatile).sess = s.sess := rfl
@[simp] theorem State.clearVolatile_estAvg : (s.clearVolatile).estAvg = s.estAvg := rfl
@[simp] theorem State.clearVolatile_pend : (s.clearVolatile).pend = s.pend := rfl
@[simp] theorem State.clearVolatile_lineBuf : (s.clearVolatile).lineBuf = s.lineBuf := rfl
@[simp] theorem State.clearVolatile_lastCmd : (s.clearVolatile).lastCmd = s.lastCmd := rfl
@[simp] theorem State.clearVolatile_engines : (s.clearVolatile).engines = s.engines := rfl
@[simp] theorem State.clearVolatile_arbPtr : (s.clearVolatile).arbPtr = 0 := rfl
@[simp] theorem State.clearVolatile_nvm : (s.clearVolatile).nvm = s.nvm := rfl
@[simp] theorem State.clearVolatile_transportOk : (s.clearVolatile).transportOk = s.draws.transportOk := rfl
@[simp] theorem State.clearVolatile_elmOk : (s.clearVolatile).elmOk = s.draws.elmOk := rfl
@[simp] theorem State.clearVolatile_clock : (s.clearVolatile).clock = s.clock := rfl
@[simp] theorem State.clearVolatile_held : (s.clearVolatile).held = [] := rfl
@[simp] theorem State.clearVolatile_hostOut : (s.clearVolatile).hostOut = [] := rfl
@[simp] theorem State.clearVolatile_log : (s.clearVolatile).log = startupLog s.draws := rfl
@[simp] theorem State.clearVolatile_answers : (s.clearVolatile).answers = [] := rfl
@[simp] theorem State.clearVolatile_adapterOut : (s.clearVolatile).adapterOut = [] := rfl
@[simp] theorem State.clearVolatile_draws : (s.clearVolatile).draws = s.draws := rfl
@[simp] theorem State.clearVolatile_script : (s.clearVolatile).script = s.script := rfl
@[simp] theorem State.clearVolatile_turn : (s.clearVolatile).turn = s.turn := rfl

/-! ### `freshEmulator` -/

@[simp] theorem State.freshEmulator_inst : (s.freshEmulator).inst = s.inst := rfl
@[simp] theorem State.freshEmulator_numBusses : (s.freshEmulator).numBusses = s.numBusses := rfl
@[simp] theorem State.freshEmulator_buses : (s.freshEmulator).buses = s.buses := rfl
@[simp] theorem State.freshEmulator_bridge : (s.freshEmulator).bridge = s.bridge := rfl
@[simp] theorem State.freshEmulator_sess : (s.freshEmulator).sess = s.inst.elmDefaults := rfl
@[simp] theorem State.freshEmulator_estAvg : (s.freshEmulator).estAvg = s.inst.avgInit := rfl
@[simp] theorem State.freshEmulator_pend : (s.freshEmulator).pend = Pending.none := rfl
@[simp] theorem State.freshEmulator_lineBuf : (s.freshEmulator).lineBuf = [] := rfl
@[simp] theorem State.freshEmulator_lastCmd : (s.freshEmulator).lastCmd = [] := rfl
@[simp] theorem State.freshEmulator_engines : (s.freshEmulator).engines = s.inst.engines.map FsmParams.fresh := rfl
@[simp] theorem State.freshEmulator_arbPtr : (s.freshEmulator).arbPtr = s.arbPtr := rfl
@[simp] theorem State.freshEmulator_nvm : (s.freshEmulator).nvm = s.nvm := rfl
@[simp] theorem State.freshEmulator_transportOk : (s.freshEmulator).transportOk = s.transportOk := rfl
@[simp] theorem State.freshEmulator_elmOk : (s.freshEmulator).elmOk = s.elmOk := rfl
@[simp] theorem State.freshEmulator_clock : (s.freshEmulator).clock = s.clock := rfl
@[simp] theorem State.freshEmulator_held : (s.freshEmulator).held = s.held := rfl
@[simp] theorem State.freshEmulator_hostOut : (s.freshEmulator).hostOut = s.hostOut := rfl
@[simp] theorem State.freshEmulator_log : (s.freshEmulator).log = s.log := rfl
@[simp] theorem State.freshEmulator_answers : (s.freshEmulator).answers = s.answers := rfl
@[simp] theorem State.freshEmulator_adapterOut : (s.freshEmulator).adapterOut = s.adapterOut := rfl
@[simp] theorem State.freshEmulator_draws : (s.freshEmulator).draws = s.draws := rfl
@[simp] theorem State.freshEmulator_script : (s.freshEmulator).script = s.script := rfl
@[simp] theorem State.freshEmulator_turn : (s.freshEmulator).turn = s.turn := rfl

end Sys2Proof.Machine
end

