-- ==== Sys2Proof/Laws/Frames.lean ====
section
/-! SUPPORT. The fields the conditional operations leave unchanged, and reading a bus after an update. -/

namespace Sys2Proof.Machine

variable (s : State)

/-! ### Reading a bus -/

theorem State.bus_eq_get (b : BusIx) (h : b.toNat < s.buses.length) : s.bus b = s.buses[b.toNat] := by
  simp [State.bus, List.getD_eq_getElem?_getD, h]

theorem State.bus_out_of_range (b : BusIx) (h : s.buses.length ≤ b.toNat) :
    s.bus b = Bus.fresh (defaultCfg s.inst) := by
  simp [State.bus, List.getD_eq_getElem?_getD, h]

theorem State.bus_mem (b : BusIx) (h : b.toNat < s.buses.length) : s.bus b ∈ s.buses := by
  rw [s.bus_eq_get b h]
  exact List.getElem_mem h

@[simp] theorem State.bus_setBus_self (b : BusIx) (x : Bus) (h : b.toNat < s.buses.length) :
    (s.setBus b x).bus b = x := by
  simp [State.bus, State.setBus, List.getD_eq_getElem?_getD, h]

theorem State.bus_setBus_ne (b c : BusIx) (x : Bus) (h : c ≠ b) : (s.setBus b x).bus c = s.bus c := by
  have hn : b.toNat ≠ c.toNat := fun e => h (BitVec.eq_of_toNat_eq e).symm
  simp [State.bus, State.setBus, List.getD_eq_getElem?_getD, List.getElem?_set_ne hn]

/-- A bus read depends on the bus array and the parameters alone. -/
theorem State.bus_congr {s t : State} (hb : t.buses = s.buses) (hi : t.inst = s.inst) (b : BusIx) :
    t.bus b = s.bus b := by
  simp [State.bus, hb, hi]

@[simp] theorem State.bus_emit (bs : Bytes) (b : BusIx) : (s.emit bs).bus b = s.bus b := rfl
@[simp] theorem State.validBus_emit (bs : Bytes) (b : BusIx) : (s.emit bs).validBus b = s.validBus b := rfl
@[simp] theorem State.bus_logEvent (e : LogEvent) (b : BusIx) : (s.logEvent e).bus b = s.bus b := rfl
@[simp] theorem State.validBus_logEvent (e : LogEvent) (b : BusIx) : (s.logEvent e).validBus b = s.validBus b := rfl
@[simp] theorem State.bus_answer (a : Answer) (b : BusIx) : (s.answer a).bus b = s.bus b := rfl
@[simp] theorem State.validBus_answer (a : Answer) (b : BusIx) : (s.answer a).validBus b = s.validBus b := rfl
@[simp] theorem State.bus_closeOut (b : BusIx) : (s.closeOut).bus b = s.bus b := rfl
@[simp] theorem State.validBus_closeOut (b : BusIx) : (s.closeOut).validBus b = s.validBus b := rfl
@[simp] theorem State.bus_updateTimeout (v : Word32) (b : BusIx) : (s.updateTimeout v).bus b = s.bus b := rfl
@[simp] theorem State.validBus_updateTimeout (v : Word32) (b : BusIx) : (s.updateTimeout v).validBus b = s.validBus b := rfl
@[simp] theorem State.bus_beginStep (b : BusIx) : (s.beginStep).bus b = s.bus b := rfl
@[simp] theorem State.validBus_beginStep (b : BusIx) : (s.beginStep).validBus b = s.validBus b := rfl

@[simp] theorem State.validBus_setBus (b c : BusIx) (x : Bus) : (s.setBus b x).validBus c = s.validBus c := rfl

theorem State.validBus_iff (b : BusIx) : s.validBus b = true ↔ b.toNat < s.numBusses.toNat := by
  simp [State.validBus]

/-! ### `raiseError` -/

@[simp] theorem State.raiseError_inst (e : LogEvent) (a : Option Answer) : (s.raiseError e a).inst = s.inst := by
  cases a <;> rfl
@[simp] theorem State.raiseError_numBusses (e : LogEvent) (a : Option Answer) : (s.raiseError e a).numBusses = s.numBusses := by
  cases a <;> rfl
@[simp] theorem State.raiseError_buses (e : LogEvent) (a : Option Answer) : (s.raiseError e a).buses = s.buses := by
  cases a <;> rfl
@[simp] theorem State.raiseError_bridge (e : LogEvent) (a : Option Answer) : (s.raiseError e a).bridge = s.bridge := by
  cases a <;> rfl
@[simp] theorem State.raiseError_sess (e : LogEvent) (a : Option Answer) : (s.raiseError e a).sess = s.sess := by
  cases a <;> rfl
@[simp] theorem State.raiseError_estAvg (e : LogEvent) (a : Option Answer) : (s.raiseError e a).estAvg = s.estAvg := by
  cases a <;> rfl
@[simp] theorem State.raiseError_pend (e : LogEvent) (a : Option Answer) : (s.raiseError e a).pend = s.pend := by
  cases a <;> rfl
@[simp] theorem State.raiseError_lineBuf (e : LogEvent) (a : Option Answer) : (s.raiseError e a).lineBuf = s.lineBuf := by
  cases a <;> rfl
@[simp] theorem State.raiseError_lastCmd (e : LogEvent) (a : Option Answer) : (s.raiseError e a).lastCmd = s.lastCmd := by
  cases a <;> rfl
@[simp] theorem State.raiseError_engines (e : LogEvent) (a : Option Answer) : (s.raiseError e a).engines = s.engines := by
  cases a <;> rfl
@[simp] theorem State.raiseError_arbPtr (e : LogEvent) (a : Option Answer) : (s.raiseError e a).arbPtr = s.arbPtr := by
  cases a <;> rfl
@[simp] theorem State.raiseError_nvm (e : LogEvent) (a : Option Answer) : (s.raiseError e a).nvm = s.nvm := by
  cases a <;> rfl
@[simp] theorem State.raiseError_transportOk (e : LogEvent) (a : Option Answer) : (s.raiseError e a).transportOk = s.transportOk := by
  cases a <;> rfl
@[simp] theorem State.raiseError_elmOk (e : LogEvent) (a : Option Answer) : (s.raiseError e a).elmOk = s.elmOk := by
  cases a <;> rfl
@[simp] theorem State.raiseError_clock (e : LogEvent) (a : Option Answer) : (s.raiseError e a).clock = s.clock := by
  cases a <;> rfl
@[simp] theorem State.raiseError_held (e : LogEvent) (a : Option Answer) : (s.raiseError e a).held = s.held := by
  cases a <;> rfl
@[simp] theorem State.raiseError_hostOut (e : LogEvent) (a : Option Answer) : (s.raiseError e a).hostOut = s.hostOut := by
  cases a <;> rfl
@[simp] theorem State.raiseError_adapterOut (e : LogEvent) (a : Option Answer) : (s.raiseError e a).adapterOut = s.adapterOut := by
  cases a <;> rfl
@[simp] theorem State.raiseError_draws (e : LogEvent) (a : Option Answer) : (s.raiseError e a).draws = s.draws := by
  cases a <;> rfl
@[simp] theorem State.raiseError_script (e : LogEvent) (a : Option Answer) : (s.raiseError e a).script = s.script := by
  cases a <;> rfl
@[simp] theorem State.raiseError_turn (e : LogEvent) (a : Option Answer) : (s.raiseError e a).turn = s.turn := by
  cases a <;> rfl
@[simp] theorem State.raiseError_log (e : LogEvent) (a : Option Answer) : (s.raiseError e a).log = s.log ++ [e] := by
  cases a <;> rfl
@[simp] theorem State.raiseError_answers_none (e : LogEvent) : (s.raiseError e none).answers = s.answers := rfl
@[simp] theorem State.raiseError_answers_some (e : LogEvent) (a : Answer) :
    (s.raiseError e (some a)).answers = s.answers ++ [a] := rfl
@[simp] theorem State.bus_raiseError (e : LogEvent) (a : Option Answer) (b : BusIx) :
    (s.raiseError e a).bus b = s.bus b := by
  cases a <;> rfl

/-! ### `persist` -/

/-- Everything `PERSIST` can do (R110). -/
theorem State.persist_cases :
    (s.draws.lockOk = false ∧ s.persist = s.logEvent .lockTimeout) ∨
    (s.draws.lockOk = true ∧ s.draws.persistOk = false ∧ s.persist = s.logEvent .persistFail) ∨
    (s.draws.lockOk = true ∧ s.draws.persistOk = true ∧
      s.persist = { s with nvm := { valid := true, busCount := s.numBusses, busConfig := s.cfgs } }) := by
  unfold State.persist
  cases s.draws.lockOk <;> cases s.draws.persistOk <;> simp

@[simp] theorem State.persist_inst : s.persist.inst = s.inst := by
  rcases s.persist_cases with ⟨_, h⟩ | ⟨_, _, h⟩ | ⟨_, _, h⟩ <;> simp [h]
@[simp] theorem State.persist_numBusses : s.persist.numBusses = s.numBusses := by
  rcases s.persist_cases with ⟨_, h⟩ | ⟨_, _, h⟩ | ⟨_, _, h⟩ <;> simp [h]
@[simp] theorem State.persist_buses : s.persist.buses = s.buses := by
  rcases s.persist_cases with ⟨_, h⟩ | ⟨_, _, h⟩ | ⟨_, _, h⟩ <;> simp [h]
@[simp] theorem State.persist_bridge : s.persist.bridge = s.bridge := by
  rcases s.persist_cases with ⟨_, h⟩ | ⟨_, _, h⟩ | ⟨_, _, h⟩ <;> simp [h]
@[simp] theorem State.persist_sess : s.persist.sess = s.sess := by
  rcases s.persist_cases with ⟨_, h⟩ | ⟨_, _, h⟩ | ⟨_, _, h⟩ <;> simp [h]
@[simp] theorem State.persist_estAvg : s.persist.estAvg = s.estAvg := by
  rcases s.persist_cases with ⟨_, h⟩ | ⟨_, _, h⟩ | ⟨_, _, h⟩ <;> simp [h]
@[simp] theorem State.persist_pend : s.persist.pend = s.pend := by
  rcases s.persist_cases with ⟨_, h⟩ | ⟨_, _, h⟩ | ⟨_, _, h⟩ <;> simp [h]
@[simp] theorem State.persist_lineBuf : s.persist.lineBuf = s.lineBuf := by
  rcases s.persist_cases with ⟨_, h⟩ | ⟨_, _, h⟩ | ⟨_, _, h⟩ <;> simp [h]
@[simp] theorem State.persist_lastCmd : s.persist.lastCmd = s.lastCmd := by
  rcases s.persist_cases with ⟨_, h⟩ | ⟨_, _, h⟩ | ⟨_, _, h⟩ <;> simp [h]
@[simp] theorem State.persist_engines : s.persist.engines = s.engines := by
  rcases s.persist_cases with ⟨_, h⟩ | ⟨_, _, h⟩ | ⟨_, _, h⟩ <;> simp [h]
@[simp] theorem State.persist_arbPtr : s.persist.arbPtr = s.arbPtr := by
  rcases s.persist_cases with ⟨_, h⟩ | ⟨_, _, h⟩ | ⟨_, _, h⟩ <;> simp [h]
@[simp] theorem State.persist_transportOk : s.persist.transportOk = s.transportOk := by
  rcases s.persist_cases with ⟨_, h⟩ | ⟨_, _, h⟩ | ⟨_, _, h⟩ <;> simp [h]
@[simp] theorem State.persist_elmOk : s.persist.elmOk = s.elmOk := by
  rcases s.persist_cases with ⟨_, h⟩ | ⟨_, _, h⟩ | ⟨_, _, h⟩ <;> simp [h]
@[simp] theorem State.persist_clock : s.persist.clock = s.clock := by
  rcases s.persist_cases with ⟨_, h⟩ | ⟨_, _, h⟩ | ⟨_, _, h⟩ <;> simp [h]
@[simp] theorem State.persist_held : s.persist.held = s.held := by
  rcases s.persist_cases with ⟨_, h⟩ | ⟨_, _, h⟩ | ⟨_, _, h⟩ <;> simp [h]
@[simp] theorem State.persist_hostOut : s.persist.hostOut = s.hostOut := by
  rcases s.persist_cases with ⟨_, h⟩ | ⟨_, _, h⟩ | ⟨_, _, h⟩ <;> simp [h]
@[simp] theorem State.persist_answers : s.persist.answers = s.answers := by
  rcases s.persist_cases with ⟨_, h⟩ | ⟨_, _, h⟩ | ⟨_, _, h⟩ <;> simp [h]
@[simp] theorem State.persist_adapterOut : s.persist.adapterOut = s.adapterOut := by
  rcases s.persist_cases with ⟨_, h⟩ | ⟨_, _, h⟩ | ⟨_, _, h⟩ <;> simp [h]
@[simp] theorem State.persist_draws : s.persist.draws = s.draws := by
  rcases s.persist_cases with ⟨_, h⟩ | ⟨_, _, h⟩ | ⟨_, _, h⟩ <;> simp [h]
@[simp] theorem State.persist_script : s.persist.script = s.script := by
  rcases s.persist_cases with ⟨_, h⟩ | ⟨_, _, h⟩ | ⟨_, _, h⟩ <;> simp [h]
@[simp] theorem State.persist_turn : s.persist.turn = s.turn := by
  rcases s.persist_cases with ⟨_, h⟩ | ⟨_, _, h⟩ | ⟨_, _, h⟩ <;> simp [h]
@[simp] theorem State.bus_persist (b : BusIx) : s.persist.bus b = s.bus b :=
  State.bus_congr (s.persist_buses) (s.persist_inst) b

@[simp] theorem State.cfgs_persist : s.persist.cfgs = s.cfgs := by simp [State.cfgs]

/-! ### `loadSettings` -/

/-- Everything `LOAD_SETTINGS` can do (R111). -/
theorem State.loadSettings_cases :
    (s.nvmOk = true ∧
      s.loadSettings = { s with numBusses := s.nvm.busCount, buses := setCfgs s.buses s.nvm.busConfig }) ∨
    (s.nvmOk = false ∧
      s.loadSettings =
        { s.logEvent .persistFail with
          numBusses := s.inst.defaultNumBusses
          buses := s.buses.map fun x => { x with cfg := defaultCfg s.inst } }) := by
  unfold State.loadSettings
  cases s.nvmOk <;> simp

@[simp] theorem State.loadSettings_inst : s.loadSettings.inst = s.inst := by
  rcases s.loadSettings_cases with ⟨_, h⟩ | ⟨_, h⟩ <;> simp [h]
@[simp] theorem State.loadSettings_bridge : s.loadSettings.bridge = s.bridge := by
  rcases s.loadSettings_cases with ⟨_, h⟩ | ⟨_, h⟩ <;> simp [h]
@[simp] theorem State.loadSettings_sess : s.loadSettings.sess = s.sess := by
  rcases s.loadSettings_cases with ⟨_, h⟩ | ⟨_, h⟩ <;> simp [h]
@[simp] theorem State.loadSettings_estAvg : s.loadSettings.estAvg = s.estAvg := by
  rcases s.loadSettings_cases with ⟨_, h⟩ | ⟨_, h⟩ <;> simp [h]
@[simp] theorem State.loadSettings_pend : s.loadSettings.pend = s.pend := by
  rcases s.loadSettings_cases with ⟨_, h⟩ | ⟨_, h⟩ <;> simp [h]
@[simp] theorem State.loadSettings_lineBuf : s.loadSettings.lineBuf = s.lineBuf := by
  rcases s.loadSettings_cases with ⟨_, h⟩ | ⟨_, h⟩ <;> simp [h]
@[simp] theorem State.loadSettings_lastCmd : s.loadSettings.lastCmd = s.lastCmd := by
  rcases s.loadSettings_cases with ⟨_, h⟩ | ⟨_, h⟩ <;> simp [h]
@[simp] theorem State.loadSettings_engines : s.loadSettings.engines = s.engines := by
  rcases s.loadSettings_cases with ⟨_, h⟩ | ⟨_, h⟩ <;> simp [h]
@[simp] theorem State.loadSettings_arbPtr : s.loadSettings.arbPtr = s.arbPtr := by
  rcases s.loadSettings_cases with ⟨_, h⟩ | ⟨_, h⟩ <;> simp [h]
@[simp] theorem State.loadSettings_nvm : s.loadSettings.nvm = s.nvm := by
  rcases s.loadSettings_cases with ⟨_, h⟩ | ⟨_, h⟩ <;> simp [h]
@[simp] theorem State.loadSettings_transportOk : s.loadSettings.transportOk = s.transportOk := by
  rcases s.loadSettings_cases with ⟨_, h⟩ | ⟨_, h⟩ <;> simp [h]
@[simp] theorem State.loadSettings_elmOk : s.loadSettings.elmOk = s.elmOk := by
  rcases s.loadSettings_cases with ⟨_, h⟩ | ⟨_, h⟩ <;> simp [h]
@[simp] theorem State.loadSettings_clock : s.loadSettings.clock = s.clock := by
  rcases s.loadSettings_cases with ⟨_, h⟩ | ⟨_, h⟩ <;> simp [h]
@[simp] theorem State.loadSettings_held : s.loadSettings.held = s.held := by
  rcases s.loadSettings_cases with ⟨_, h⟩ | ⟨_, h⟩ <;> simp [h]
@[simp] theorem State.loadSettings_hostOut : s.loadSettings.hostOut = s.hostOut := by
  rcases s.loadSettings_cases with ⟨_, h⟩ | ⟨_, h⟩ <;> simp [h]
@[simp] theorem State.loadSettings_answers : s.loadSettings.answers = s.answers := by
  rcases s.loadSettings_cases with ⟨_, h⟩ | ⟨_, h⟩ <;> simp [h]
@[simp] theorem State.loadSettings_adapterOut : s.loadSettings.adapterOut = s.adapterOut := by
  rcases s.loadSettings_cases with ⟨_, h⟩ | ⟨_, h⟩ <;> simp [h]
@[simp] theorem State.loadSettings_draws : s.loadSettings.draws = s.draws := by
  rcases s.loadSettings_cases with ⟨_, h⟩ | ⟨_, h⟩ <;> simp [h]
@[simp] theorem State.loadSettings_script : s.loadSettings.script = s.script := by
  rcases s.loadSettings_cases with ⟨_, h⟩ | ⟨_, h⟩ <;> simp [h]
@[simp] theorem State.loadSettings_turn : s.loadSettings.turn = s.turn := by
  rcases s.loadSettings_cases with ⟨_, h⟩ | ⟨_, h⟩ <;> simp [h]

/-! ### `startBuses` -/

@[simp] theorem State.startBuses_inst : s.startBuses.inst = s.inst := by
  unfold State.startBuses
  split
  · rfl
  · rfl
@[simp] theorem State.startBuses_numBusses : s.startBuses.numBusses = s.numBusses := by
  unfold State.startBuses
  split
  · rfl
  · rfl
@[simp] theorem State.startBuses_bridge : s.startBuses.bridge = s.bridge := by
  unfold State.startBuses
  split
  · rfl
  · rfl
@[simp] theorem State.startBuses_sess : s.startBuses.sess = s.sess := by
  unfold State.startBuses
  split
  · rfl
  · rfl
@[simp] theorem State.startBuses_estAvg : s.startBuses.estAvg = s.estAvg := by
  unfold State.startBuses
  split
  · rfl
  · rfl
@[simp] theorem State.startBuses_pend : s.startBuses.pend = s.pend := by
  unfold State.startBuses
  split
  · rfl
  · rfl
@[simp] theorem State.startBuses_lineBuf : s.startBuses.lineBuf = s.lineBuf := by
  unfold State.startBuses
  split
  · rfl
  · rfl
@[simp] theorem State.startBuses_lastCmd : s.startBuses.lastCmd = s.lastCmd := by
  unfold State.startBuses
  split
  · rfl
  · rfl
@[simp] theorem State.startBuses_engines : s.startBuses.engines = s.engines := by
  unfold State.startBuses
  split
  · rfl
  · rfl
@[simp] theorem State.startBuses_arbPtr : s.startBuses.arbPtr = s.arbPtr := by
  unfold State.startBuses
  split
  · rfl
  · rfl
@[simp] theorem State.startBuses_nvm : s.startBuses.nvm = s.nvm := by
  unfold State.startBuses
  split
  · rfl
  · rfl
@[simp] theorem State.startBuses_transportOk : s.startBuses.transportOk = s.transportOk := by
  unfold State.startBuses
  split
  · rfl
  · rfl
@[simp] theorem State.startBuses_elmOk : s.startBuses.elmOk = s.elmOk := by
  unfold State.startBuses
  split
  · rfl
  · rfl
@[simp] theorem State.startBuses_clock : s.startBuses.clock = s.clock := by
  unfold State.startBuses
  split
  · rfl
  · rfl
@[simp] theorem State.startBuses_held : s.startBuses.held = s.held := by
  unfold State.startBuses
  split
  · rfl
  · rfl
@[simp] theorem State.startBuses_hostOut : s.startBuses.hostOut = s.hostOut := by
  unfold State.startBuses
  split
  · rfl
  · rfl
@[simp] theorem State.startBuses_log : s.startBuses.log = s.log := by
  unfold State.startBuses
  split
  · rfl
  · rfl
@[simp] theorem State.startBuses_answers : s.startBuses.answers = s.answers := by
  unfold State.startBuses
  split
  · rfl
  · rfl
@[simp] theorem State.startBuses_adapterOut : s.startBuses.adapterOut = s.adapterOut := by
  unfold State.startBuses
  split
  · rfl
  · rfl
@[simp] theorem State.startBuses_draws : s.startBuses.draws = s.draws := by
  unfold State.startBuses
  split
  · rfl
  · rfl
@[simp] theorem State.startBuses_script : s.startBuses.script = s.script := by
  unfold State.startBuses
  split
  · rfl
  · rfl
@[simp] theorem State.startBuses_turn : s.startBuses.turn = s.turn := by
  unfold State.startBuses
  split
  · rfl
  · rfl

/-! ### `bookkeep` -/

/-- Everything step 3 of `PROCESS_CAN_FRAME` can write: `pend`, `est_avg`, the session's timeout, the host output. -/
theorem State.bookkeepIfDue_eq :
    s.bookkeepIfDue =
      { s with
        pend := s.bookkeepIfDue.pend, estAvg := s.bookkeepIfDue.estAvg
        sess := { s.sess with timeoutMs := s.bookkeepIfDue.sess.timeoutMs }, hostOut := s.bookkeepIfDue.hostOut } := by
  unfold State.bookkeepIfDue State.bookkeep
  dsimp only
  split
  · split <;> split <;> rfl
  · rfl

@[simp] theorem State.bookkeepIfDue_inst : s.bookkeepIfDue.inst = s.inst := by
  rw [s.bookkeepIfDue_eq]
@[simp] theorem State.bookkeepIfDue_numBusses : s.bookkeepIfDue.numBusses = s.numBusses := by
  rw [s.bookkeepIfDue_eq]
@[simp] theorem State.bookkeepIfDue_buses : s.bookkeepIfDue.buses = s.buses := by
  rw [s.bookkeepIfDue_eq]
@[simp] theorem State.bookkeepIfDue_bridge : s.bookkeepIfDue.bridge = s.bridge := by
  rw [s.bookkeepIfDue_eq]
@[simp] theorem State.bookkeepIfDue_lineBuf : s.bookkeepIfDue.lineBuf = s.lineBuf := by
  rw [s.bookkeepIfDue_eq]
@[simp] theorem State.bookkeepIfDue_lastCmd : s.bookkeepIfDue.lastCmd = s.lastCmd := by
  rw [s.bookkeepIfDue_eq]
@[simp] theorem State.bookkeepIfDue_engines : s.bookkeepIfDue.engines = s.engines := by
  rw [s.bookkeepIfDue_eq]
@[simp] theorem State.bookkeepIfDue_arbPtr : s.bookkeepIfDue.arbPtr = s.arbPtr := by
  rw [s.bookkeepIfDue_eq]
@[simp] theorem State.bookkeepIfDue_nvm : s.bookkeepIfDue.nvm = s.nvm := by
  rw [s.bookkeepIfDue_eq]
@[simp] theorem State.bookkeepIfDue_transportOk : s.bookkeepIfDue.transportOk = s.transportOk := by
  rw [s.bookkeepIfDue_eq]
@[simp] theorem State.bookkeepIfDue_elmOk : s.bookkeepIfDue.elmOk = s.elmOk := by
  rw [s.bookkeepIfDue_eq]
@[simp] theorem State.bookkeepIfDue_clock : s.bookkeepIfDue.clock = s.clock := by
  rw [s.bookkeepIfDue_eq]
@[simp] theorem State.bookkeepIfDue_held : s.bookkeepIfDue.held = s.held := by
  rw [s.bookkeepIfDue_eq]
@[simp] theorem State.bookkeepIfDue_log : s.bookkeepIfDue.log = s.log := by
  rw [s.bookkeepIfDue_eq]
@[simp] theorem State.bookkeepIfDue_answers : s.bookkeepIfDue.answers = s.answers := by
  rw [s.bookkeepIfDue_eq]
@[simp] theorem State.bookkeepIfDue_adapterOut : s.bookkeepIfDue.adapterOut = s.adapterOut := by
  rw [s.bookkeepIfDue_eq]
@[simp] theorem State.bookkeepIfDue_draws : s.bookkeepIfDue.draws = s.draws := by
  rw [s.bookkeepIfDue_eq]
@[simp] theorem State.bookkeepIfDue_script : s.bookkeepIfDue.script = s.script := by
  rw [s.bookkeepIfDue_eq]
@[simp] theorem State.bookkeepIfDue_turn : s.bookkeepIfDue.turn = s.turn := by
  rw [s.bookkeepIfDue_eq]
@[simp] theorem State.bus_bookkeepIfDue (b : BusIx) : s.bookkeepIfDue.bus b = s.bus b :=
  State.bus_congr (s.bookkeepIfDue_buses) (s.bookkeepIfDue_inst) b

end Sys2Proof.Machine
end

