-- ==== Sys2Proof/Laws/Ops.lean ====
section
/-! SUPPORT. For each shared operation, what it can do: cited instead of unfolding the operation. -/

namespace Sys2Proof.Machine

variable {s t : State}

/-! ### Guards -/

theorem onTransport_next {r : Result} :
    onTransport s r = .next t ↔ s.transportOk = true ∧ r = .next t := by
  unfold onTransport; split <;> simp_all

theorem onElm_next {r : Result} : onElm s r = .next t ↔ s.elmOk = true ∧ r = .next t := by
  unfold onElm; split <;> simp_all

@[simp] theorem onTransport_ok {r : Result} (h : s.transportOk = true) : onTransport s r = r := by
  simp [onTransport, h]

@[simp] theorem onElm_ok {r : Result} (h : s.elmOk = true) : onElm s r = r := by simp [onElm, h]

/-- An operation on a bus completes with its own effect on a valid index, and with `InvalidBus` on any other. -/
theorem onValidBus_next {b : BusIx} {r : Result} :
    onValidBus s b r = .next t ↔
      s.transportOk = true ∧
        ((s.validBus b = true ∧ r = .next t) ∨
          (s.validBus b = false ∧ t = s.logEvent (.invalidBus b))) := by
  unfold onValidBus
  rw [onTransport_next]
  cases s.validBus b
  · simp [State.raiseError, @eq_comm State t]
  · simp

/-- A getter answers, and writes nothing else than the log event of an invalid index. -/
theorem busGetter_next {b : BusIx} {bad good : Answer} :
    busGetter s b bad good = .next t ↔
      s.transportOk = true ∧
        ((s.validBus b = true ∧ t = s.answer good) ∨
          (s.validBus b = false ∧ t = (s.logEvent (.invalidBus b)).answer bad)) := by
  unfold busGetter
  rw [onTransport_next]
  cases s.validBus b <;> simp only [State.raiseError, Host.Outcome.next.injEq] <;> simp [@eq_comm State t]

/-! ### Clamps and times -/

theorem clampRate_toNat (p : Params) (r : Word32) :
    (clampRate p r).toNat = min r.toNat p.maxBitrate.toNat := by
  unfold clampRate; split <;> omega

theorem clamp_bounds {v lo hi : Nat} (h : lo ≤ hi) : lo ≤ clamp v lo hi ∧ clamp v lo hi ≤ hi := by
  unfold clamp; split <;> [skip; split] <;> omega

theorem clamp_of_mem {v lo hi : Nat} (h₁ : lo ≤ v) (h₂ : v ≤ hi) : clamp v lo hi = v := by
  unfold clamp; split <;> [skip; split] <;> omega

/-- The estimator's average lies between the old average and the sample, so it fits a `u32` (R249). -/
theorem nextAverage_le (avg sample : Word32) : nextAverage avg sample ≤ max avg.toNat sample.toNat := by
  unfold nextAverage; omega

theorem nextAverage_lt (avg sample : Word32) : nextAverage avg sample < 2 ^ 32 := by
  have h := nextAverage_le avg sample
  have := avg.isLt
  have := sample.isLt
  omega

theorem clamp_le (v : Nat) {lo hi : Nat} (h : lo ≤ hi) : clamp v lo hi ≤ hi := (clamp_bounds h).2

/-! ### `SEND` -/

/-- Everything the look at a transmit queue can do (R131, R139). -/
theorem sendLook_cases (b : BusIx) (f : CanFrame) (s : State) :
    ((s.bus b).txq.length < s.inst.txqDepth ∧ sendLook b f s = some (0, s.enqTx b f)) ∨
    (s.inst.txqDepth ≤ (s.bus b).txq.length ∧ s.draws.giveUp = true ∧
      sendLook b f s = some (eQueueFull, s.dropTx b)) ∨
    (s.inst.txqDepth ≤ (s.bus b).txq.length ∧ s.draws.giveUp = false ∧ sendLook b f s = none) := by
  unfold sendLook
  by_cases h : (s.bus b).txq.length < s.inst.txqDepth
  · simp [h]
  · cases hg : s.draws.giveUp <;> simp [h] <;> omega

/-- Everything `SEND` can do up to its result, in the order of R288. -/
theorem sendStart_cases (b : BusIx) (f : CanFrame) (s : State) :
    (s.validBus b = false ∧ sendStart b f s = some (eInvalidBus, s.logEvent (.invalidBus b))) ∨
    (s.validBus b = true ∧ (s.bus b).cfg.enabled = false ∧
      sendStart b f s = some (eNotEnabled, s.logEvent (.notEnabled b))) ∨
    (s.validBus b = true ∧ (s.bus b).cfg.enabled = true ∧ (s.bus b).cfg.listenOnly = true ∧
      sendStart b f s = some (eListenOnly, s.logEvent (.listenOnly b))) ∨
    (s.validBus b = true ∧ (s.bus b).cfg.enabled = true ∧ (s.bus b).cfg.listenOnly = false ∧
      sendStart b f s = sendLook b f s) := by
  unfold sendStart
  cases s.validBus b <;> cases (s.bus b).cfg.enabled <;> cases (s.bus b).cfg.listenOnly <;>
    simp [State.raiseError]

/-- The states `SEND` can leave behind before the rest of its caller runs. -/
inductive SendEffect (s : State) (b : BusIx) (f : CanFrame) : Int → State → Prop where
  | queued (h : (s.bus b).txq.length < s.inst.txqDepth) : SendEffect s b f 0 (s.enqTx b f)
  | dropped (h : s.inst.txqDepth ≤ (s.bus b).txq.length) : SendEffect s b f eQueueFull (s.dropTx b)
  | rejected (r : Int) (e : LogEvent) (h : r < 0) : SendEffect s b f r (s.logEvent e)

theorem sendLook_effect {b : BusIx} {f : CanFrame} {r : Int} (h : sendLook b f s = some (r, t)) :
    SendEffect s b f r t := by
  rcases sendLook_cases b f s with ⟨hq, e⟩ | ⟨hq, _, e⟩ | ⟨_, _, e⟩ <;> rw [e] at h
  · cases h; exact .queued hq
  · cases h; exact .dropped hq
  · cases h

theorem sendStart_effect {b : BusIx} {f : CanFrame} {r : Int} (h : sendStart b f s = some (r, t)) :
    SendEffect s b f r t := by
  rcases sendStart_cases b f s with ⟨_, e⟩ | ⟨_, _, e⟩ | ⟨_, _, _, e⟩ | ⟨_, _, _, e⟩ <;> rw [e] at h
  · cases h; exact .rejected _ _ (by decide)
  · cases h; exact .rejected _ _ (by decide)
  · cases h; exact .rejected _ _ (by decide)
  · exact sendLook_effect h

/-- Everything `SEND` and the rest of its caller can do: the rest runs after one of the effects of `SEND`, or the
operation holds. -/
theorem sendThen_next {b : BusIx} {f : CanFrame} {k : SendCont} (h : sendThen b f k s = .next t) :
    s.transportOk = true ∧
      ((∃ r s', SendEffect s b f r s' ∧ t = finishSend k r s') ∨
        (s.inst.txqDepth ≤ (s.bus b).txq.length ∧ t = holdSend b f k s)) := by
  unfold sendThen at h
  rw [onTransport_next] at h
  refine ⟨h.1, ?_⟩
  have h' := h.2
  split at h'
  · next r s' hs =>
    cases h'
    exact .inl ⟨r, s', sendStart_effect hs, rfl⟩
  · next hs =>
    cases h'
    refine .inr ⟨?_, rfl⟩
    rcases sendStart_cases b f s with ⟨_, e⟩ | ⟨_, _, e⟩ | ⟨_, _, _, e⟩ | ⟨_, _, _, e⟩ <;> rw [e] at hs
    · cases hs
    · cases hs
    · cases hs
    · rcases sendLook_cases b f s with ⟨_, e⟩ | ⟨_, _, e⟩ | ⟨hq, _, _⟩
      · rw [e] at hs; cases hs
      · rw [e] at hs; cases hs
      · exact hq

/-! ### `RECEIVE` -/

/-- Everything the look at a receive queue can do (R132, R139). -/
theorem receiveLook_cases (b : BusIx) (s : State) :
    (∃ f rest, (s.bus b).rxq = f :: rest ∧
      receiveLook b s = some (some f, (rest.length : Int), s.setBus b { s.bus b with rxq := rest })) ∨
    ((s.bus b).rxq = [] ∧ s.draws.giveUp = true ∧ receiveLook b s = some (none, eEmpty, s)) ∨
    ((s.bus b).rxq = [] ∧ s.draws.giveUp = false ∧ receiveLook b s = none) := by
  unfold receiveLook
  split
  · next f rest h => exact .inl ⟨f, rest, h, rfl⟩
  · next h => cases s.draws.giveUp <;> simp [h]

/-! ### Held operations -/

/-- Everything another look of a held operation can do (R139). -/
theorem resumeHeld_next {k : Nat} (h : resumeHeld k s = .next t) :
    s.transportOk = true ∧
      (t = s ∨
        (∃ b f c r s', s.held[k]? = some (.send b f c) ∧ SendEffect s b f r s' ∧
          t = finishSend c r { s' with held := s'.held.eraseIdx k }) ∨
        (∃ b f r s', s.held[k]? = some (.receive b) ∧ receiveLook b s = some (f, r, s') ∧
          t = ({ s' with held := s'.held.eraseIdx k } : State).answer (.received r f))) := by
  unfold resumeHeld at h
  rw [onTransport_next] at h
  refine ⟨h.1, ?_⟩
  have h' := h.2
  split at h'
  · cases h'; exact .inl rfl
  · next b f c hk =>
    split at h'
    · next r s' hs => cases h'; exact .inr (.inl ⟨b, f, c, r, s', hk, sendLook_effect hs, rfl⟩)
    · cases h'; exact .inl rfl
  · next b hk =>
    split at h'
    · next f r s' hs => cases h'; exact .inr (.inr ⟨b, f, r, s', hk, hs, rfl⟩)
    · cases h'; exact .inl rfl

/-! ### Received frames -/

/-- The state after step 1 of `PROCESS_CAN_FRAME` (R241): the text line is on the host stream. -/
def State.shown (s : State) (f : CanFrame) : State := s.emit (formatFrame s.inst s.sess s.draws.wideId f)

/-- Everything `PROCESS_CAN_FRAME` and its caller's rest can do (R241). -/
theorem processFrame_next {c : FrameCaller} {f : CanFrame} (h : processFrame c f s = .next t) :
    (isFirstMarker f = true ∧ s.sess.monitor = false ∧
      sendThen s.inst.elmBus (flowFrame f.id s.sess.extended)
        (.frame c f (formatFrame s.inst s.sess s.draws.wideId f)) s = .next t) ∨
    ((isFirstMarker f = false ∨ s.sess.monitor = true) ∧ t = (s.shown f).bookkeepIfDue.frameDone c f) := by
  unfold processFrame at h
  dsimp only at h
  split at h
  · next hc => simp at hc; exact .inl ⟨hc.1, hc.2, h⟩
  · next hc =>
    cases h
    refine .inr ⟨?_, rfl⟩
    revert hc
    cases isFirstMarker f <;> cases s.sess.monitor <;> simp

/-- Everything `HANDLE_CAN_FRAME` and its caller's rest can do (R240). -/
theorem handleFrame_next {c : FrameCaller} {f : CanFrame} (h : handleFrame c f s = .next t) :
    s.elmOk = true ∧
      ((s.sess.monitor = false ∧ inRespRange f.id s.sess.extended = false ∧ t = s.frameDone c f) ∨
        (s.draws.lockOk = false ∧ t = (s.logEvent .lockTimeout).frameDone c f) ∨
        (s.draws.lockOk = true ∧ (s.sess.monitor = true ∨ inRespRange f.id s.sess.extended = true) ∧
          processFrame c f s = .next t)) := by
  unfold handleFrame at h
  rw [onElm_next] at h
  refine ⟨h.1, ?_⟩
  have h' := h.2
  split at h'
  · next hc => simp at hc; cases h'; exact .inl ⟨hc.1, hc.2, rfl⟩
  · next hc =>
    have hc' : s.sess.monitor = true ∨ inRespRange f.id s.sess.extended = true := by
      revert hc; cases s.sess.monitor <;> cases inRespRange f.id s.sess.extended <;> simp
    split at h'
    · next hl => simp at hl; cases h'; exact .inr (.inl ⟨hl, rfl⟩)
    · next hl => simp at hl; exact .inr (.inr ⟨hl, hc', h'⟩)

/-- Everything `HANDLE_BRIDGE` and its caller's rest can do (R162). -/
theorem bridgeFrame_next {b : BusIx} {f : CanFrame} {k : SendCont} {done : State → Bool → State}
    (h : bridgeFrame b f k done s = .next t) :
    s.transportOk = true ∧
      ((s.draws.lockOk = false ∧ t = done (s.logEvent .lockTimeout) false) ∨
        (s.draws.lockOk = true ∧ bridgeOther s.bridge b = none ∧ t = done s false) ∨
        (s.draws.lockOk = true ∧ ∃ other, bridgeOther s.bridge b = some other ∧
          sendThen other f k s = .next t)) := by
  unfold bridgeFrame at h
  rw [onTransport_next] at h
  refine ⟨h.1, ?_⟩
  have h' := h.2
  split at h'
  · next hl => simp at hl; cases h'; exact .inl ⟨hl, rfl⟩
  · next hl =>
    simp at hl
    split at h'
    · next ho => cases h'; exact .inr (.inl ⟨hl, ho, rfl⟩)
    · next o ho => exact .inr (.inr ⟨hl, o, ho, h'⟩)

/-! ### The State Machine Engine -/

/-- Everything `FSM_STEP` can do (R177, R178, R180): one instance moves, the side output is answered, an unknown target
is logged. -/
theorem execFsmStep_next {x : EngineByte} (h : execFsmStep x s = .next t) :
    ∃ p e e' out unknown, s.inst.engines[x.engine]? = some p ∧ s.engines[x.engine]? = some e ∧
      engineStep p e x.byte s.draws.fsmUser = .done e' out unknown ∧
      t =
        { s with
          engines := s.engines.set x.engine e', log := s.log ++ (unknown.map LogEvent.unknownState).toList
          answers := s.answers ++ [.sideOutput out] } := by
  unfold execFsmStep at h
  split at h
  · next p e hp he =>
    split at h <;> cases h
    · next e' out ho => exact ⟨p, e, e', out, none, hp, he, ho, by simp [State.answer]⟩
    · next e' out target ho => exact ⟨p, e, e', out, some target, hp, he, ho, rfl⟩
  · cases h

/-! ### Host commands -/

/-- An AT command writes the session and its reply, nothing else (R194). -/
theorem atReply_next {sess' : ElmSession} {info : Bytes} :
    atReply sess' info s = .next t ↔
      s.elmOk = true ∧ t = { s with sess := sess', hostOut := s.hostOut ++ (info ++ okTerm sess'.linefeed) } := by
  unfold atReply
  rw [onElm_next]
  simp only [State.emit, Host.Outcome.next.injEq]
  simp [@eq_comm State t]

/-- A PID request sends and arms, and only when none is outstanding and the header fits (R215, R218). -/
theorem pidRequest_next {data : Payload} {mode : Byte} {pid : BitVec 16} {expected : Byte}
    (h : pidRequest data mode pid expected s = .next t) :
    s.elmOk = true ∧ s.pend.valid = false ∧ (s.sess.extended = true ∨ s.sess.headerId.toNat ≤ 0x7FF) ∧
      sendThen s.inst.elmBus (requestFrame s.sess data) (.pid mode pid expected) s = .next t := by
  unfold pidRequest at h
  rw [onElm_next] at h
  refine ⟨h.1, ?_⟩
  have h' := h.2
  split at h'
  · cases h'
  · next hp =>
    split at h'
    · cases h'
    · next hh =>
      refine ⟨by simpa using hp, ?_, h'⟩
      revert hh
      cases s.sess.extended <;> simp

/-! ### Kept environment -/

/-- What the environment and the instance own: no operation writes it (R6, R32). -/
structure SameEnv (s t : State) : Prop where
  inst : t.inst = s.inst
  clock : t.clock = s.clock
  draws : t.draws = s.draws
  script : t.script = s.script
  turn : t.turn = s.turn

theorem SameEnv.refl (s : State) : SameEnv s s := ⟨rfl, rfl, rfl, rfl, rfl⟩

theorem SameEnv.trans {u : State} (h₁ : SameEnv s t) (h₂ : SameEnv t u) : SameEnv s u :=
  ⟨h₂.inst.trans h₁.inst, h₂.clock.trans h₁.clock, h₂.draws.trans h₁.draws, h₂.script.trans h₁.script,
    h₂.turn.trans h₁.turn⟩

theorem sendEffect_env {b : BusIx} {f : CanFrame} {r : Int} (h : SendEffect s b f r t) : SameEnv s t := by
  cases h <;> exact ⟨rfl, rfl, rfl, rfl, rfl⟩

theorem frameDone_env (s : State) (c : FrameCaller) (f : CanFrame) : SameEnv s (s.frameDone c f) := by
  cases c <;> exact ⟨rfl, rfl, rfl, rfl, rfl⟩

theorem finishSend_env (k : SendCont) (r : Int) (s : State) : SameEnv s (finishSend k r s) := by
  cases k with
  | frame c f line =>
    exact SameEnv.trans ⟨by simp, by simp, by simp, by simp, by simp⟩
      (frameDone_env (s.emit line).bookkeepIfDue c f)
  | _ => exact ⟨rfl, rfl, rfl, rfl, rfl⟩

theorem holdSend_env (b : BusIx) (f : CanFrame) (k : SendCont) (s : State) : SameEnv s (holdSend b f k s) := by
  rcases k with _ | _ | _ | _ | _ | ⟨_ | _, _, _⟩ <;> exact ⟨rfl, rfl, rfl, rfl, rfl⟩

theorem sendThen_env {b : BusIx} {f : CanFrame} {k : SendCont} (h : sendThen b f k s = .next t) : SameEnv s t := by
  rcases (sendThen_next h).2 with ⟨r, s', he, rfl⟩ | ⟨_, rfl⟩
  · exact (sendEffect_env he).trans (finishSend_env k r s')
  · exact holdSend_env b f k s

end Sys2Proof.Machine
end

