-- ==== Sys2Proof/Laws/Queues.lean ====
section
/-! SUPPORT. What the operations do to the buses' queues, counters and outputs: one lemma for each operation. -/

namespace Sys2Proof.Machine

variable {s t u : State}

/-- What one operation other than a reset or a load can do to a bus's queues, counters, registration and outputs. -/
structure BusMove (p : Params) (x y : Bus) : Prop where
  rxq : FifoMove x.rxq y.rxq
  txq : FifoMove x.txq y.txq
  registered : x.irqRegistered = true → y.irqRegistered = true
  canOut : x.canOut <+: y.canOut
  ctrlCmd : x.ctrlCmd <+: y.ctrlCmd
  rxOverflow : y.rxOverflow = x.rxOverflow ∨
    (y.rxOverflow = x.rxOverflow + 1 ∧ p.rxqDepth ≤ x.rxq.length ∧ y.rxq = x.rxq)
  txOverflow : y.txOverflow = x.txOverflow ∨
    (y.txOverflow = x.txOverflow + 1 ∧ p.txqDepth ≤ x.txq.length ∧ y.txq = x.txq)

theorem BusMove.refl (p : Params) (x : Bus) : BusMove p x x :=
  ⟨.inl rfl, .inl rfl, id, List.prefix_rfl, List.prefix_rfl, .inl rfl, .inl rfl⟩

/-- Every bus of `t` is a move of the same bus of `s`. -/
def Moves (s t : State) : Prop := ∀ b : BusIx, BusMove s.inst (s.bus b) (t.bus b)

/-- An operation that writes no bus moves none. -/
theorem Moves.of_buses (hb : t.buses = s.buses) (hi : t.inst = s.inst) : Moves s t := by
  intro b; rw [State.bus_congr hb hi]; exact .refl _ _

/-- An operation that writes one bus moves it if the new record is a move of the old. -/
theorem Moves.set {b : BusIx} {x : Bus} (hb : t.buses = s.buses.set b.toNat x)
    (hi : t.inst = s.inst) (h : BusMove s.inst (s.bus b) x) : Moves s t := by
  intro c
  have e : t.bus c = (s.setBus b x).bus c := State.bus_congr (s := s.setBus b x) (t := t) hb hi c
  rw [e]
  by_cases hc : c = b
  · subst hc
    by_cases hl : c.toNat < s.buses.length
    · rw [s.bus_setBus_self c x hl]; exact h
    · have hl' : s.buses.length ≤ c.toNat := by omega
      rw [State.bus_out_of_range (s.setBus c x) _ (by simpa [State.setBus] using hl'), State.bus_out_of_range s _ hl']
      exact .refl _ _
  · rw [s.bus_setBus_ne b c x hc]; exact .refl _ _

theorem Moves.congr (h : Moves s t) (hb : u.buses = t.buses) (hi : u.inst = t.inst) : Moves s u := by
  intro b; rw [State.bus_congr hb hi]; exact h b

/-- A change of the receive task's phase is no move. -/
theorem Moves.rx (h : Moves s t) (b : BusIx) (p : RxPhase) : Moves s (t.setRxTask b p) := by
  intro c
  have hc := h c
  by_cases he : c = b
  · subst he
    by_cases hl : c.toNat < t.buses.length
    · rw [State.setRxTask, t.bus_setBus_self c _ hl]; exact ⟨hc.1, hc.2, hc.3, hc.4, hc.5, hc.6, hc.7⟩
    · have hl' : t.buses.length ≤ c.toNat := by omega
      have e : (t.setRxTask c p).bus c = t.bus c := by
        rw [State.bus_out_of_range t _ hl', State.bus_out_of_range]; rfl
        simpa [State.setRxTask, State.setBus] using hl'
      rw [e]; exact hc
  · rw [State.setRxTask, t.bus_setBus_ne b c _ he]; exact hc

theorem Moves.sendEffect {b f r} (h : SendEffect s b f r t) : Moves s t := by
  cases h with
  | queued h => exact .set rfl rfl ⟨.inl rfl, .inr (.inl ⟨f, rfl⟩), id, List.prefix_rfl, List.prefix_rfl, .inl rfl,
      .inl rfl⟩
  | dropped h => exact .set rfl rfl ⟨.inl rfl, .inl rfl, id, List.prefix_rfl, List.prefix_rfl, .inl rfl, .inr ⟨rfl,
      h, rfl⟩⟩
  | rejected r e h => exact .of_buses rfl rfl

theorem Moves.frameDone (h : Moves s t) (c f) : Moves s (t.frameDone c f) := by
  cases c with
  | direct => exact h
  | rxTask b => exact (h.rx b .idle).congr rfl rfl

theorem Moves.finish (h : Moves s t) (k r) : Moves s (finishSend k r t) := by
  cases k with
  | rxBridge b f => exact h.rx b _
  | frame c f line => exact Moves.frameDone (h.congr (by simp) (by simp)) c f
  | _ => exact h.congr rfl rfl

theorem Moves.hold (h : Moves s t) (b f k) : Moves s (holdSend b f k t) := by
  rcases k with _ | _ | ⟨o, g⟩ | _ | _ | ⟨_ | o, g, _⟩
  case rxBridge => exact h.rx o _
  case frame.rxTask => exact h.rx o _
  all_goals exact h.congr rfl rfl

/-- `SEND` and the rest of its caller (R131). -/
theorem Moves.sendThen {b f k} (hb : u.buses = s.buses) (hi : u.inst = s.inst)
    (h : sendThen b f k u = .next t) : Moves s t := by
  have key : Moves u t := by
    rcases (sendThen_next h).2 with ⟨r, s', he, rfl⟩ | ⟨_, rfl⟩
    · exact (Moves.sendEffect he).finish k r
    · exact (Moves.of_buses rfl rfl).hold b f k
  intro c
  have := key c
  rw [State.bus_congr hb hi, hi] at this
  exact this

theorem Moves.processFrame {c f} (h : processFrame c f s = .next t) : Moves s t := by
  rcases processFrame_next h with ⟨_, _, h⟩ | ⟨_, rfl⟩
  · exact Moves.sendThen rfl rfl h
  · exact Moves.frameDone (.of_buses (by simp [State.shown]) (by simp [State.shown])) c f

theorem Moves.handleFrame {c f} (h : handleFrame c f s = .next t) : Moves s t := by
  rcases (handleFrame_next h).2 with ⟨_, _, rfl⟩ | ⟨_, rfl⟩ | ⟨_, _, h⟩
  · exact Moves.frameDone (.of_buses rfl rfl) c f
  · exact Moves.frameDone (t := s.logEvent .lockTimeout) (.of_buses rfl rfl) c f
  · exact .processFrame h

theorem Moves.bridgeFrame {b f k done} (hd : ∀ u v : State, ∀ w,
    u.buses = s.buses → u.inst = s.inst → v = done u w → Moves s v)
    (h : bridgeFrame b f k done s = .next t) : Moves s t := by
  rcases (bridgeFrame_next h).2 with ⟨_, rfl⟩ | ⟨_, _, rfl⟩ | ⟨_, o, _, h⟩
  · exact hd (s.logEvent .lockTimeout) _ _ rfl rfl rfl
  · exact hd s _ _ rfl rfl rfl
  · exact .sendThen rfl rfl h

theorem Moves.receiveLook {b f r} (h : receiveLook b s = some (f, r, t)) : Moves s t := by
  rcases receiveLook_cases b s with ⟨g, rest, hq, e⟩ | ⟨_, _, e⟩ | ⟨_, _, e⟩ <;> rw [e] at h <;> cases h
  · exact .set rfl rfl ⟨.inr (.inr ⟨g, hq⟩), .inl rfl, id, List.prefix_rfl, List.prefix_rfl, .inl rfl, .inl rfl⟩
  · exact .of_buses rfl rfl

theorem Moves.onValid {b} {r : Result} (h : onValidBus s b r = .next t) (hr : r = .next t → Moves s t)
    : Moves s t := by
  rcases (onValidBus_next.1 h).2 with ⟨_, h⟩ | ⟨_, rfl⟩
  · exact hr h
  · exact .of_buses rfl rfl

theorem Moves.getter {b bad good} (h : busGetter s b bad good = .next t) : Moves s t := by
  rcases (busGetter_next.1 h).2 with ⟨_, rfl⟩ | ⟨_, rfl⟩ <;> exact .of_buses rfl rfl

theorem Moves.at {se i} (h : atReply se i s = .next t) : Moves s t := by
  obtain ⟨_, rfl⟩ := atReply_next.1 h; exact .of_buses rfl rfl

theorem Moves.pid {d m p e} (h : pidRequest d m p e s = .next t) : Moves s t := by
  obtain ⟨_, _, _, h⟩ := pidRequest_next h; exact .sendThen rfl rfl h

theorem Moves.onElmNext {r : State}
    (h : onElm s (.next r) = .next t) (hb : r.buses = s.buses) (hi : r.inst = s.inst) : Moves s t := by
  obtain ⟨_, h⟩ := onElm_next.1 h; cases h; exact .of_buses hb hi

theorem Moves.command {c : LineCmd} (h : execCommand c s = .next t) : Moves s t := by
  cases c
  case pid4 => exact Moves.pid h
  case pid5 => exact Moves.pid h
  case pid6 => exact Moves.pid h
  case pid7 => exact Moves.pid h
  case unknownAt => exact Moves.onElmNext h rfl rfl
  case malformedAt => exact Moves.onElmNext h rfl rfl
  case invalidLine => exact Moves.onElmNext h rfl rfl
  all_goals exact Moves.at h

theorem Moves.repeatLine (h : execRepeatLine s = .next t) : Moves s t := by
  obtain ⟨_, h⟩ := onElm_next.1 h
  split at h
  · cases h; exact .of_buses rfl rfl
  · exact .command h

theorem Moves.before (hb : u.buses = s.buses) (hi : u.inst = s.inst) (h : Moves u t) : Moves s t := by
  intro c
  have := h c
  rw [State.bus_congr hb hi, hi] at this
  exact this

theorem Moves.dispatch {l} (h : execDispatchLine l s = .next t) : Moves s t := by
  obtain ⟨_, h⟩ := onElm_next.1 h
  split at h
  · exact .repeatLine h
  · exact .before (u := { s with lastCmd := l }) rfl rfl (.command h)

@[simp] theorem State.echoed_buses : s.echoed.buses = s.buses := by unfold State.echoed; split <;> rfl

@[simp] theorem State.echoed_inst : s.echoed.inst = s.inst := by unfold State.echoed; split <;> rfl

theorem Moves.hostByte {c} (h : execHostByte c s = .next t) : Moves s t := by
  obtain ⟨_, h⟩ := onElm_next.1 h
  split at h
  · exact .before (u := { s.echoed with lineBuf := [] }) (by simp) (by simp) (.dispatch h)
  · split at h
    · cases h; exact .of_buses (by simp) (by simp)
    · cases h

theorem Moves.cfgSet {b} {x : Bus} (h : BusMove s.inst (s.bus b) x) : Moves s (s.setBus b x).persist :=
  .set (by simp [State.setBus]) (by simp) h

/-- `RX_TASK_STEP` (R163). -/
theorem Moves.rxStep {b} (h : execRxTaskStep b s = .next t) : Moves s t := by
  obtain ⟨_, h⟩ := onTransport_next.1 h
  have hr : ∀ h : rxTaskReceive b s = .next t, Moves s t := by
    intro h
    unfold rxTaskReceive at h
    split at h <;> cases h
    · next h' => exact (Moves.receiveLook (by assumption)).rx b _
    · next h' => exact (Moves.receiveLook (by assumption)).rx b _
    · exact (Moves.of_buses rfl rfl).rx b _
  split at h
  · split at h
    · exact hr h
    · cases h; exact .of_buses (by simp) (by simp)
  · exact hr h
  · exact .bridgeFrame (fun u v w hb hi e => by rw [e]; exact (Moves.of_buses hb hi).rx b _) h
  · split at h <;> cases h
    · exact (Moves.sendEffect (sendLook_effect (by assumption))).finish _ _
    · exact .of_buses rfl rfl
  · exact .handleFrame h
  · split at h <;> cases h
    · exact (Moves.sendEffect (sendLook_effect (by assumption))).finish _ _
    · exact .of_buses rfl rfl

theorem Moves.poll (h : execCheckForTimeout s = .next t) : Moves s t := by
  obtain ⟨_, h⟩ := onElm_next.1 h
  have hu : ∀ s : State, s.closeUnanswered.buses = s.buses ∧ s.closeUnanswered.inst = s.inst := by
    intro s; unfold State.closeUnanswered; split <;> exact ⟨rfl, rfl⟩
  split at h
  · cases h; exact .of_buses rfl rfl
  · split at h
    · cases h; exact .of_buses rfl rfl
    · split at h <;> cases h
      · split <;> exact .of_buses rfl rfl
      · split
        · exact .of_buses (hu s).1 (hu s).2
        · exact .of_buses rfl rfl

/-- `TX_STEP` (R133). -/
theorem Moves.tx (h : execTxStep s = .next t) : Moves s t := by
  obtain ⟨_, h⟩ := onTransport_next.1 h
  split at h <;> cases h
  · next b hb =>
    unfold State.transmit
    dsimp only
    split
    · next f rest hq =>
      exact .set (b := BitVec.ofNat 8 b) rfl rfl ⟨.inl rfl, .inr (.inr ⟨f, hq⟩), id, List.prefix_append _ _,
          List.prefix_rfl, .inl rfl, .inl rfl⟩
    · exact .of_buses rfl rfl
  · exact .of_buses rfl rfl

theorem Moves.fsm {x} (h : execFsmStep x s = .next t) : Moves s t := by
  obtain ⟨_, _, _, _, _, _, _, _, rfl⟩ := execFsmStep_next h
  exact .of_buses rfl rfl

end Sys2Proof.Machine
end

