-- ==== Sys2Proof/Laws/Outputs.lean ====
section
/-! SUPPORT. The operations only append to the block's output streams (R30): one lemma for each operation. -/

namespace Sys2Proof.Machine

variable {s t u : State}

/-- What has been written to the host, logged, answered and delivered stays, in order, at the front. -/
structure Appends (s t : State) : Prop where
  hostOut : s.hostOut <+: t.hostOut
  log : s.log <+: t.log
  answers : s.answers <+: t.answers
  adapterOut : s.adapterOut <+: t.adapterOut

theorem Appends.refl (s : State) : Appends s s :=
  ⟨List.prefix_rfl, List.prefix_rfl, List.prefix_rfl, List.prefix_rfl⟩

theorem Appends.trans (h : Appends s t) (g : Appends t u) : Appends s u :=
  ⟨h.1.trans g.1, h.2.trans g.2, h.3.trans g.3, h.4.trans g.4⟩

/-- An operation that writes none of the four streams appends nothing. -/
theorem Appends.of (h : (t.hostOut, t.log, t.answers, t.adapterOut) = (s.hostOut, s.log, s.answers, s.adapterOut)) :
    Appends s t := by
  simp only [Prod.mk.injEq] at h
  obtain ⟨h1, h2, h3, h4⟩ := h
  exact ⟨by rw [h1], by rw [h2], by rw [h3], by rw [h4]⟩

/-- An operation that starts from other state than the four streams. -/
theorem Appends.after (g : Appends t u)
    (h : (t.hostOut, t.log, t.answers, t.adapterOut) = (s.hostOut, s.log, s.answers, s.adapterOut)) : Appends s u :=
  (Appends.of h).trans g

theorem Appends.emit (s : State) (bs) : Appends s (s.emit bs) :=
  ⟨List.prefix_append _ _, List.prefix_rfl, List.prefix_rfl, List.prefix_rfl⟩

theorem Appends.logEvent (s : State) (e) : Appends s (s.logEvent e) :=
  ⟨List.prefix_rfl, List.prefix_append _ _, List.prefix_rfl, List.prefix_rfl⟩

theorem Appends.answer (s : State) (a) : Appends s (s.answer a) :=
  ⟨List.prefix_rfl, List.prefix_rfl, List.prefix_append _ _, List.prefix_rfl⟩

theorem Appends.sendEffect {b f r} (h : SendEffect s b f r t) : Appends s t := by
  cases h with
  | queued h => exact .of rfl
  | dropped h => exact ⟨List.prefix_rfl, List.prefix_append _ _, List.prefix_rfl, List.prefix_rfl⟩
  | rejected r e h => exact .logEvent s e

theorem Appends.rx (s : State) (b p) : Appends s (s.setRxTask b p) := .of rfl

theorem Appends.closeOut (s : State) : Appends s s.closeOut := (Appends.emit s _).trans (.of rfl)

theorem Appends.update (s : State) (v) : Appends s (s.updateTimeout v) := .of rfl

theorem Appends.book (s : State) : Appends s s.bookkeepIfDue := by
  have h (u : State) (hu : Appends s u) (p : Pending) : Appends s (if targetReached p then u.closeOut else u) := by
    split
    · exact hu.trans (.closeOut u)
    · exact hu
  unfold State.bookkeepIfDue
  split
  · exact h _ (by split <;> exact .of rfl) _
  · exact .refl s

theorem Appends.done (s : State) (c f) : Appends s (s.frameDone c f) := by
  cases c with
  | direct => exact .refl s
  | rxTask b => exact ⟨List.prefix_rfl, List.prefix_rfl, List.prefix_rfl, List.prefix_append _ _⟩

theorem Appends.finish (s : State) (k r) : Appends s (finishSend k r s) := by
  cases k with
  | client => exact .answer s _
  | bridge => exact .answer s _
  | rxBridge b f => exact .of rfl
  | pid => exact .of rfl
  | flow => exact .refl s
  | frame c f line => exact (Appends.emit s line).trans ((Appends.book _).trans (.done _ c f))

theorem Appends.hold (s : State) (b f k) : Appends s (holdSend b f k s) := by
  rcases k with _ | _ | _ | _ | _ | ⟨_ | _, _, _⟩ <;> exact .of rfl

theorem Appends.send {b f k} (h : sendThen b f k s = .next t) : Appends s t := by
  rcases (sendThen_next h).2 with ⟨r, s', he, rfl⟩ | ⟨_, rfl⟩
  · exact (Appends.sendEffect he).trans (.finish s' k r)
  · exact .hold s b f k

theorem Appends.process {c f} (h : processFrame c f s = .next t) : Appends s t := by
  rcases processFrame_next h with ⟨_, _, h⟩ | ⟨_, rfl⟩
  · exact .send h
  · exact (Appends.emit s _).trans ((Appends.book _).trans (.done _ c f))

theorem Appends.handle {c f} (h : handleFrame c f s = .next t) : Appends s t := by
  rcases (handleFrame_next h).2 with ⟨_, _, rfl⟩ | ⟨_, rfl⟩ | ⟨_, _, h⟩
  · exact .done s c f
  · exact (Appends.logEvent s _).trans (.done _ c f)
  · exact .process h

theorem Appends.bridge {b f k done} (hd : ∀ u w, Appends u (done u w)) (h : bridgeFrame b f k done s = .next t) :
    Appends s t := by
  rcases (bridgeFrame_next h).2 with ⟨_, rfl⟩ | ⟨_, _, rfl⟩ | ⟨_, o, _, h⟩
  · exact (Appends.logEvent s _).trans (hd _ _)
  · exact hd s _
  · exact .send h

theorem Appends.receive {b f r} (h : receiveLook b s = some (f, r, t)) : Appends s t := by
  rcases receiveLook_cases b s with ⟨g, rest, hq, e⟩ | ⟨_, _, e⟩ | ⟨_, _, e⟩ <;> rw [e] at h <;> cases h <;>
    exact .of rfl

theorem Appends.resume {k} (h : resumeHeld k s = .next t) : Appends s t := by
  rcases (resumeHeld_next h).2 with rfl | ⟨b, f, c, r, s', _, he, rfl⟩ | ⟨b, f, r, s', _, hr, rfl⟩
  · exact .refl _
  · exact (Appends.sendEffect he).trans ((Appends.finish { s' with held := s'.held.eraseIdx k } c r).after rfl)
  · exact (Appends.receive hr).trans ((Appends.answer { s' with held := s'.held.eraseIdx k } _).after rfl)

theorem Appends.persist (s : State) : Appends s s.persist := by
  unfold State.persist
  split
  · exact .logEvent s _
  · split
    · exact .logEvent s _
    · exact .of rfl

theorem Appends.onValid {b} {r : Result} (h : onValidBus s b r = .next t) (hr : r = .next t → Appends s t) :
    Appends s t := by
  rcases (onValidBus_next.1 h).2 with ⟨_, h⟩ | ⟨_, rfl⟩
  · exact hr h
  · exact .logEvent s _

theorem Appends.getter {b bad good} (h : busGetter s b bad good = .next t) : Appends s t := by
  rcases (busGetter_next.1 h).2 with ⟨_, rfl⟩ | ⟨_, rfl⟩
  · exact .answer s _
  · exact (Appends.logEvent s _).trans (.answer _ _)

theorem Appends.at {se i} (h : atReply se i s = .next t) : Appends s t := by
  obtain ⟨_, rfl⟩ := atReply_next.1 h
  exact ⟨List.prefix_append _ _, List.prefix_rfl, List.prefix_rfl, List.prefix_rfl⟩

theorem Appends.pid {d m p e} (h : pidRequest d m p e s = .next t) : Appends s t := by
  obtain ⟨_, _, _, h⟩ := pidRequest_next h; exact .send h

theorem Appends.badLine {e bs} (h : onElm s (.next ((s.raiseError e none).emit bs)) = .next t) : Appends s t := by
  obtain ⟨_, h⟩ := onElm_next.1 h
  cases h
  exact (Appends.logEvent s _).trans (.emit _ _)

theorem Appends.command {c : LineCmd} (h : execCommand c s = .next t) : Appends s t := by
  cases c
  case pid4 => exact Appends.pid h
  case pid5 => exact Appends.pid h
  case pid6 => exact Appends.pid h
  case pid7 => exact Appends.pid h
  case unknownAt => exact Appends.badLine h
  case malformedAt => exact Appends.badLine h
  case invalidLine => exact Appends.badLine h
  all_goals exact Appends.at h

theorem Appends.repeatLine (h : execRepeatLine s = .next t) : Appends s t := by
  obtain ⟨_, h⟩ := onElm_next.1 h
  split at h
  · cases h; exact .refl s
  · exact .command h

theorem Appends.dispatch {l} (h : execDispatchLine l s = .next t) : Appends s t := by
  obtain ⟨_, h⟩ := onElm_next.1 h
  split at h
  · exact .repeatLine h
  · exact (Appends.command h).after rfl

theorem Appends.echoed (s : State) : Appends s s.echoed := by
  unfold State.echoed
  split
  · exact .emit s _
  · exact .refl s

theorem Appends.hostByte {c} (h : execHostByte c s = .next t) : Appends s t := by
  obtain ⟨_, h⟩ := onElm_next.1 h
  split at h
  · exact (Appends.echoed s).trans ((Appends.dispatch h).after rfl)
  · split at h
    · cases h; exact (Appends.echoed s).trans (.of rfl)
    · cases h

theorem Appends.rxReceive {b} (h : rxTaskReceive b s = .next t) : Appends s t := by
  unfold rxTaskReceive at h
  split at h <;> cases h
  · exact (Appends.receive (by assumption)).trans (.rx _ b _)
  · exact (Appends.receive (by assumption)).trans (.rx _ b _)
  · exact .of rfl

/-- `RX_TASK_STEP` (R163). -/
theorem Appends.rxStep {b} (h : execRxTaskStep b s = .next t) : Appends s t := by
  obtain ⟨_, h⟩ := onTransport_next.1 h
  split at h
  · split at h
    · exact .rxReceive h
    · cases h; exact .logEvent s _
  · exact .rxReceive h
  · exact .bridge (fun u w => .rx u b _) h
  · split at h <;> cases h
    · exact (Appends.sendEffect (sendLook_effect (by assumption))).trans (.finish _ _ _)
    · exact .refl s
  · exact .handle h
  · split at h <;> cases h
    · exact (Appends.sendEffect (sendLook_effect (by assumption))).trans (.finish _ _ _)
    · exact .refl s

theorem Appends.poll (h : execCheckForTimeout s = .next t) : Appends s t := by
  obtain ⟨_, h⟩ := onElm_next.1 h
  have hu : Appends s s.closeUnanswered := by
    unfold State.closeUnanswered
    split
    · exact .closeOut s
    · exact ⟨List.prefix_append _ _, List.prefix_rfl, List.prefix_rfl, List.prefix_rfl⟩
  split at h
  · cases h; exact .refl s
  · split at h
    · cases h; exact .logEvent s _
    · split at h <;> cases h
      · split
        · exact .closeOut s
        · exact .refl s
      · split
        · exact hu
        · exact .refl s

/-- `TX_STEP` (R133). -/
theorem Appends.tx (h : execTxStep s = .next t) : Appends s t := by
  obtain ⟨_, h⟩ := onTransport_next.1 h
  split at h <;> cases h
  · unfold State.transmit
    dsimp only
    split
    · exact .of rfl
    · exact .refl s
  · exact .refl s

theorem Appends.fsm {x} (h : execFsmStep x s = .next t) : Appends s t := by
  obtain ⟨_, _, _, _, _, _, _, _, rfl⟩ := execFsmStep_next h
  exact ⟨List.prefix_rfl, List.prefix_append _ _, List.prefix_append _ _, List.prefix_rfl⟩

end Sys2Proof.Machine
end

