-- ==== Sys2Proof/Laws/PerInstr.lean ====
section
/-! SUPPORT. What every instruction's words look like, one lemma per constructor (R73, R74, R87). -/

namespace Sys2Proof.Laws

/-- A line in two parts holds no terminator iff neither part does. -/
theorem lineOk_append (a b : Bytes) : lineOk (a ++ b) = (lineOk a && lineOk b) := by simp [lineOk]

theorem hexDigit_no_terminator : ∀ k : Fin 16, isTerminator (hexDigit k.val) = false := by decide

theorem lineOk_hexN (n v : Nat) : lineOk (hexN n v) = true := by
  induction n generalizing v with
  | zero => rfl
  | succ n ih =>
    rw [hexN, lineOk_append, ih]
    have h := hexDigit_no_terminator ⟨v % 16, Nat.mod_lt _ (by decide)⟩
    simp [lineOk, h]

theorem lineOk_flag (l : Bytes) (h : lineOk l = true) (on : Bool) : lineOk (l ++ [flagByte on]) = true := by
  rw [lineOk_append, h]
  cases on <;> rfl

namespace WordShape

/-- The words of a well-formed instruction: at most fifteen bytes beginning with a code of R73 on `API`; a line and its
one terminator on `HOST_IN`. An internal event has none. -/
def Statement (i : Instr) : Prop :=
  i.wf = true →
    match encode i with
    | some (.api, bs) => bs.length ≤ 15 ∧ ∃ op operands, bs = op :: operands ∧ op.toNat ≤ 0x11
    | some (.hostIn, bs) => ∃ line, bs = line ++ [0x0D] ∧ lineOk line = true
    | none => True

theorem enable bus rate : Statement (.enable bus rate) := fun _ => ⟨by simp [le32], _, _, rfl, by decide⟩
theorem disable bus : Statement (.disable bus) := fun _ => ⟨by simp, _, _, rfl, by decide⟩
theorem setBitrate bus rate : Statement (.setBitrate bus rate) := fun _ => ⟨by simp [le32], _, _, rfl, by decide⟩
theorem setListenOnly bus flag : Statement (.setListenOnly bus flag) := fun _ => ⟨by simp [le32], _, _, rfl, by decide⟩
theorem isEnabled bus : Statement (.isEnabled bus) := fun _ => ⟨by simp, _, _, rfl, by decide⟩
theorem getBitrate bus : Statement (.getBitrate bus) := fun _ => ⟨by simp, _, _, rfl, by decide⟩
theorem isListenOnly bus : Statement (.isListenOnly bus) := fun _ => ⟨by simp, _, _, rfl, by decide⟩
theorem send bus frame : Statement (.send bus frame) := fun _ => ⟨by simp [encodeFrame, le32, Payload.toList], _, _, rfl, by decide⟩
theorem receive bus : Statement (.receive bus) := fun _ => ⟨by simp, _, _, rfl, by decide⟩
theorem getRxBufferedFrames bus : Statement (.getRxBufferedFrames bus) := fun _ => ⟨by simp, _, _, rfl, by decide⟩
theorem getTxBufferedFrames bus : Statement (.getTxBufferedFrames bus) := fun _ => ⟨by simp, _, _, rfl, by decide⟩
theorem getRxOverflowCount bus : Statement (.getRxOverflowCount bus) := fun _ => ⟨by simp, _, _, rfl, by decide⟩
theorem getTxOverflowCount bus : Statement (.getTxOverflowCount bus) := fun _ => ⟨by simp, _, _, rfl, by decide⟩
theorem getNumBusses : Statement (.getNumBusses) := fun _ => ⟨by decide, _, _, rfl, by decide⟩
theorem setNumBusses n : Statement (.setNumBusses n) := fun _ => ⟨by simp [argOfByte, le32], _, _, rfl, by decide⟩
theorem getStatistics bus : Statement (.getStatistics bus) := fun _ => ⟨by simp, _, _, rfl, by decide⟩
theorem setBridge bus1 bus2 : Statement (.setBridge bus1 bus2) := fun _ => ⟨by simp [argOfByte, le32], _, _, rfl, by decide⟩
theorem handleBridge bus frame : Statement (.handleBridge bus frame) := fun _ => ⟨by simp [encodeFrame, le32, Payload.toList], _, _, rfl, by decide⟩
theorem atdesc : Statement (.atdesc) := fun _ => ⟨_, rfl, by decide⟩
theorem atsp d : Statement (.atsp d) := fun _ => ⟨_, rfl, by cases d <;> decide⟩
theorem atat on : Statement (.atat on) := fun _ => ⟨_, rfl, by cases on <;> decide⟩
theorem atst hh : Statement (.atst hh) := fun _ => ⟨_, rfl, by rw [encodeLine, lineOk_append, lineOk_hexN]; rfl⟩
theorem atdp numeric : Statement (.atdp numeric) := fun _ => ⟨_, rfl, by cases numeric <;> decide⟩
theorem atpc : Statement (.atpc) := fun _ => ⟨_, rfl, by decide⟩
theorem atrv : Statement (.atrv) := fun _ => ⟨_, rfl, by decide⟩
theorem at1 : Statement (.at1) := fun _ => ⟨_, rfl, by decide⟩
theorem atsh h : Statement (.atsh h) := fun _ => ⟨_, rfl, by rw [encodeLine, lineOk_append, lineOk_hexN]; rfl⟩
theorem atma on : Statement (.atma on) := fun _ => ⟨_, rfl, by cases on <;> decide⟩
theorem ate on : Statement (.ate on) := fun _ => ⟨_, rfl, by cases on <;> decide⟩
theorem atm on : Statement (.atm on) := fun _ => ⟨_, rfl, by cases on <;> decide⟩
theorem atl on : Statement (.atl on) := fun _ => ⟨_, rfl, by cases on <;> decide⟩
theorem ats on : Statement (.ats on) := fun _ => ⟨_, rfl, by cases on <;> decide⟩
theorem ath on : Statement (.ath on) := fun _ => ⟨_, rfl, by cases on <;> decide⟩
theorem atd on : Statement (.atd on) := fun _ => ⟨_, rfl, by cases on <;> decide⟩
theorem atz : Statement (.atz) := fun _ => ⟨_, rfl, by decide⟩
theorem ati : Statement (.ati) := fun _ => ⟨_, rfl, by decide⟩
theorem repeatLine : Statement (.repeatLine) := fun _ => ⟨[], rfl, rfl⟩
theorem pid4 mode pid : Statement (.pid4 mode pid) := fun _ => ⟨_, rfl, by rw [encodeLine, lineOk_append, lineOk_hexN, lineOk_hexN]; rfl⟩
theorem pid5 mode pid expected : Statement (.pid5 mode pid expected) := fun _ =>
  ⟨_, rfl, by rw [encodeLine, lineOk_append, lineOk_append, lineOk_hexN, lineOk_hexN, lineOk_hexN]; rfl⟩
theorem pid6 mode pid : Statement (.pid6 mode pid) := fun _ => ⟨_, rfl, by rw [encodeLine, lineOk_append, lineOk_hexN, lineOk_hexN]; rfl⟩
theorem pid7 mode pid expected : Statement (.pid7 mode pid expected) := fun _ =>
  ⟨_, rfl, by rw [encodeLine, lineOk_append, lineOk_append, lineOk_hexN, lineOk_hexN, lineOk_hexN]; rfl⟩
theorem unknownAt u : Statement (.unknownAt u) := fun h => ⟨u, rfl, by
  simp only [Instr.wf, LineCmd.wf, Bool.and_eq_true] at h
  exact h.1.1⟩
theorem malformedAt u : Statement (.malformedAt u) := fun h => ⟨u, rfl, by
  simp only [Instr.wf, LineCmd.wf, Bool.and_eq_true] at h
  exact h.1.1⟩
theorem invalidLine u : Statement (.invalidLine u) := fun h => ⟨u, rfl, by
  simp only [Instr.wf, LineCmd.wf, Bool.and_eq_true] at h
  exact h.1.1⟩
theorem rxEvent bus frame : Statement (.rxEvent bus frame) := fun _ => trivial
theorem txStep : Statement (.txStep) := fun _ => trivial
theorem rxTaskStep bus : Statement (.rxTaskStep bus) := fun _ => trivial
theorem persist : Statement (.persist) := fun _ => trivial
theorem loadSettings : Statement (.loadSettings) := fun _ => trivial
theorem fsmStep byte : Statement (.fsmStep byte) := fun _ => trivial
theorem hostByte c : Statement (.hostByte c) := fun _ => trivial
theorem dispatchLine line : Statement (.dispatchLine line) := fun _ => trivial
theorem handleCanFrame frame : Statement (.handleCanFrame frame) := fun _ => trivial
theorem processCanFrame frame : Statement (.processCanFrame frame) := fun _ => trivial
theorem formatFrameOutput frame : Statement (.formatFrameOutput frame) := fun _ => trivial
theorem sendFlowControl frame : Statement (.sendFlowControl frame) := fun _ => trivial
theorem updateTimeout sample : Statement (.updateTimeout sample) := fun _ => trivial
theorem checkForTimeout : Statement (.checkForTimeout) := fun _ => trivial
theorem closeOut : Statement (.closeOut) := fun _ => trivial
theorem reset : Statement (.reset) := fun _ => trivial

end WordShape

end Sys2Proof.Laws
end

