-- ==== Sys2Proof/Laws/Sends.lean ====
section
/-! SUPPORT. What `SEND` and the cascade of the engine answer, in the terms the statements use. -/

namespace Sys2Proof.Machine

variable {s u : State} {b : BusIx} {f : CanFrame} {r : Int} {k : SendCont}

theorem sendLook_of_settles (h : s.sendSettles b f r u) : sendLook b f s = some (r, u) := by
  rcases h with ⟨h1, rfl, rfl⟩ | ⟨h1, h2, rfl, rfl⟩
  · simp [sendLook, h1, State.enqTx]
  · have : ¬ (s.bus b).txq.length < s.inst.txqDepth := by omega
    simp [sendLook, this, h2, State.dropTx, State.raiseError, State.logEvent, eQueueFull]

theorem sendLook_of_waits (h : s.sendWaits b) : sendLook b f s = none := by
  have : ¬ (s.bus b).txq.length < s.inst.txqDepth := Nat.not_lt.2 h.1
  simp [sendLook, this, h.2]

theorem sendStart_of_passes (h : s.sendPasses b) : sendStart b f s = sendLook b f s := by
  obtain ⟨h1, h2, h3⟩ := h
  simp [sendStart, State.validBus, h1, h2, h3]

theorem sendStart_of_results (h : s.sendResults b f r u) : sendStart b f s = some (r, u) := by
  rcases h with ⟨h1, rfl, rfl⟩ | ⟨h1, h2, rfl, rfl⟩ | ⟨h1, h2, h3, rfl, rfl⟩ | ⟨h1, h2⟩
  · have : ¬ b.toNat < s.numBusses.toNat := by omega
    simp [sendStart, State.validBus, this, State.raiseError, State.logEvent, eInvalidBus]
  · simp [sendStart, State.validBus, h1, h2, State.raiseError, State.logEvent, eNotEnabled]
  · simp [sendStart, State.validBus, h1, h2, h3, State.raiseError, State.logEvent, eListenOnly]
  · rw [sendStart_of_passes h1, sendLook_of_settles h2]

/-- `SEND` and the rest of its caller, where it ends at once. -/
theorem sendThen_of_results (ht : s.transportOk = true) (h : s.sendResults b f r u) :
    sendThen b f k s = .next (finishSend k r u) := by
  rw [sendThen, onTransport_ok ht, sendStart_of_results h]

/-- `SEND` and the rest of its caller, where it holds. -/
theorem sendThen_of_waits (ht : s.transportOk = true) (h : s.sendPasses b) (hw : s.sendWaits b) :
    sendThen b f k s = .next (holdSend b f k s) := by
  rw [sendThen, onTransport_ok ht, sendStart_of_passes h, sendLook_of_waits hw]

/-- The loop of R177 answers what its chain does, whatever fuel beyond the chain's length it has. -/
theorem cascade_of_chain {reg : FsmRegistry} {n current next user : Nat} {res : Cascade}
    (h : FsmChain reg n current next user res) : ∀ fuel, n ≤ fuel → cascade reg fuel current next user = res := by
  induction h with
  | stay => intro fuel _; unfold cascade; simp
  | unknown c nx u hne hno => intro fuel _; unfold cascade; simp [hne, hno]
  | move n c nx u nx' u' old new res hne hold hnew henter rest ih =>
    intro fuel hf
    obtain ⟨k, rfl⟩ : ∃ k, fuel = k + 1 := ⟨fuel - 1, by omega⟩
    unfold cascade
    simp only [beq_iff_eq, hne, hold, hnew, henter, if_false]
    exact ih k (by omega)

end Sys2Proof.Machine
end

