-- ==== Sys2Proof/Laws/Sound.lean ====
section
/-! SUPPORT. What the operations that arm no request keep: one lemma for each operation. -/

namespace Sys2Proof.Machine

variable {s t u : State}

/-- What the queue, frame and poll operations leave as it is. -/
structure Kept (s t : State) : Prop where
  env : SameEnv s t
  numBusses : t.numBusses = s.numBusses
  lineBuf : t.lineBuf = s.lineBuf
  lastCmd : t.lastCmd = s.lastCmd
  engines : t.engines = s.engines
  nvm : t.nvm = s.nvm

theorem Kept.refl (s : State) : Kept s s := ⟨.refl s, rfl, rfl, rfl, rfl, rfl⟩

/-- An update of other fields than the kept ones keeps them. -/
theorem Kept.of (e : SameEnv s t)
    (h : (t.numBusses, t.lineBuf, t.lastCmd, t.engines, t.nvm) =
      (s.numBusses, s.lineBuf, s.lastCmd, s.engines, s.nvm)) : Kept s t := by
  simp only [Prod.mk.injEq] at h
  exact ⟨e, h.1, h.2.1, h.2.2.1, h.2.2.2.1, h.2.2.2.2⟩

theorem Kept.trans (h : Kept s t) (g : Kept t u) : Kept s u :=
  ⟨h.1.trans g.1, g.2.trans h.2, g.3.trans h.3, g.4.trans h.4, g.5.trans h.5, g.6.trans h.6⟩

/-- The bus array keeps its length and the soundness of its buses. -/
def BusesSound (s t : State) : Prop := t.buses.length = s.buses.length ∧
  ((∀ x ∈ s.buses, x.Inv s.inst) → ∀ x ∈ t.buses, x.Inv s.inst)

theorem BusesSound.of_buses (h : t.buses = s.buses) : BusesSound s t := ⟨by rw [h], by rw [h]; exact id⟩

theorem BusesSound.trans (h : BusesSound s t) (g : BusesSound t u) (hi : t.inst = s.inst) : BusesSound s u :=
  ⟨g.1.trans h.1, fun a => hi ▸ g.2 (by rw [hi]; exact h.2 a)⟩

theorem Bus.fresh_inv (p : Params) (c) : (Bus.fresh c).Inv p := by constructor <;> simp [Bus.fresh]

theorem State.bus_inv (h : ∀ x ∈ s.buses, x.Inv s.inst) (b : BusIx) : (s.bus b).Inv s.inst := by
  by_cases hl : b.toNat < s.buses.length
  · exact h _ (s.bus_mem b hl)
  · rw [State.bus_out_of_range s b (by omega)]; exact Bus.fresh_inv _ _

theorem BusesSound.set {b : BusIx} {x : Bus} (hb : t.buses = s.buses.set b.toNat x)
    (h : (s.bus b).Inv s.inst → x.Inv s.inst) : BusesSound s t := by
  constructor
  · rw [hb]; simp
  · intro a y hy
    rw [hb] at hy
    rcases List.mem_or_eq_of_mem_set hy with hy | rfl
    · exact a _ hy
    · exact h (State.bus_inv a b)

/-- An exchange that is only counted, cleared or left (R252): nothing is armed. -/
structure PendLe (s t : State) : Prop where
  cleared : t.pend.valid = false → t.pend = Pending.none ∨ t.pend = s.pend
  down : t.pend.valid = true → s.pend.valid = true
  holds : t.elmHolds = s.elmHolds

theorem PendLe.of_eq (h : t.pend = s.pend) (hh : t.elmHolds = s.elmHolds) : PendLe s t :=
  ⟨fun _ => .inr h, by rw [h]; exact id, hh⟩

theorem PendLe.trans (h : PendLe s t) (g : PendLe t u) : PendLe s u :=
  ⟨fun a => (g.1 a).elim .inl fun e => by rw [e] at a ⊢; exact h.1 a, fun a => h.2 (g.2 a), g.3.trans h.3⟩

/-- The three together. -/
structure Benign (s t : State) : Prop where
  kept : Kept s t
  good : BusesSound s t
  pend : PendLe s t

theorem Benign.trans (h : Benign s t) (g : Benign t u) : Benign s u :=
    ⟨h.1.trans g.1, h.2.trans g.2 h.1.env.inst, h.3.trans g.3⟩

theorem Benign.refl (s : State) : Benign s s := ⟨.refl s, .of_buses rfl, .of_eq rfl rfl⟩

theorem Benign.sendEffect {b f r} (h : SendEffect s b f r t) : Benign s t := by
  cases h with
  | queued h => exact ⟨.of ⟨rfl, rfl, rfl, rfl, rfl⟩ rfl,
      .set rfl fun i => ⟨i.1, by simp; omega, i.3, i.4, i.5⟩, .of_eq rfl rfl⟩
  | dropped h => exact ⟨.of ⟨rfl, rfl, rfl, rfl, rfl⟩ rfl,
      .set rfl fun i => ⟨i.1, i.2, i.3, i.4, i.5⟩, .of_eq rfl rfl⟩
  | rejected r e h => exact ⟨.of ⟨rfl, rfl, rfl, rfl, rfl⟩ rfl, .of_buses rfl, .of_eq rfl rfl⟩

theorem Benign.rx (s : State) (b p) : Benign s (s.setRxTask b p) :=
  ⟨.of ⟨rfl, rfl, rfl, rfl, rfl⟩ rfl, .set rfl fun i => ⟨i.1, i.2, i.3, i.4, i.5⟩, .of_eq rfl rfl⟩

theorem Benign.log (s : State) (e) : Benign s (s.logEvent e) :=
    ⟨.of ⟨rfl, rfl, rfl, rfl, rfl⟩ rfl, .of_buses rfl, .of_eq rfl rfl⟩

theorem Benign.answer (s : State) (e) : Benign s (s.answer e) :=
    ⟨.of ⟨rfl, rfl, rfl, rfl, rfl⟩ rfl, .of_buses rfl, .of_eq rfl rfl⟩

theorem Benign.emit (s : State) (e) : Benign s (s.emit e) :=
    ⟨.of ⟨rfl, rfl, rfl, rfl, rfl⟩ rfl, .of_buses rfl, .of_eq rfl rfl⟩

theorem Benign.done (s : State) (c f) : Benign s (s.frameDone c f) := by
  cases c with
  | direct => exact .refl s
  | rxTask b => exact (Benign.rx s b .idle).trans ⟨.of ⟨rfl, rfl, rfl, rfl, rfl⟩ rfl, .of_buses rfl, .of_eq rfl rfl⟩

theorem Benign.closeOut (s : State) : Benign s s.closeOut :=
  ⟨.of ⟨rfl, rfl, rfl, rfl, rfl⟩ rfl, .of_buses rfl, ⟨fun _ => .inl rfl, (by intro h; cases h), rfl⟩⟩

theorem Benign.update (s : State) (v) : Benign s (s.updateTimeout v) :=
  ⟨.of ⟨rfl, rfl, rfl, rfl, rfl⟩ rfl, .of_buses rfl, .of_eq rfl rfl⟩

theorem Benign.pendSet (s : State) (p) (h : s.pend.valid = true) (hp : p.valid = true) : Benign s { s with pend :=
    p } :=
  ⟨.of ⟨rfl, rfl, rfl, rfl, rfl⟩ rfl,
      .of_buses rfl, ⟨(by intro h; change p.valid = false at h; rw [hp] at h; cases h), fun _ => h, rfl⟩⟩

theorem Benign.book (s : State) : Benign s s.bookkeepIfDue := by
  unfold State.bookkeepIfDue
  split
  · next h =>
    have hv : s.pend.valid = true := by simp at h; exact h.2
    have h1 := Benign.pendSet s (s.pend.stamp s.clock) hv hv
    unfold State.bookkeep; dsimp only
    split
    · split
      · exact h1.trans ((Benign.update _ _).trans (Benign.closeOut _))
      · exact h1.trans (Benign.closeOut _)
    · split
      · exact h1.trans (Benign.update _ _)
      · exact h1
  · exact .refl s

/-- The rests of `SEND` that arm no request. -/
def SendCont.notPid : SendCont → Bool
  | .pid _ _ _ => false
  | _ => true

theorem Benign.finish (s : State) (k r) (h : SendCont.notPid k = true) : Benign s (finishSend k r s) := by
  cases k with
  | client => exact .answer s _
  | bridge => exact .answer s _
  | rxBridge b f => exact .rx s _ _
  | pid => cases h
  | flow => exact .refl s
  | frame c f line => exact (Benign.emit s line).trans ((Benign.book _).trans (Benign.done _ c f))

theorem State.elmHolds_append (s : State) (x : Held) (h : x.isElm = false) : ({ s with held :=
    s.held ++ [x] } : State).elmHolds = s.elmHolds := by
  simp [State.elmHolds, List.filter_append, h]

theorem Benign.held (s : State) (x : Held) (h : x.isElm = false) : Benign s { s with held := s.held ++ [x] } :=
  ⟨.of ⟨rfl, rfl, rfl, rfl, rfl⟩ rfl, .of_buses rfl, .of_eq rfl (State.elmHolds_append s x h)⟩

theorem Benign.hold (s : State) (b f k) (h : SendCont.notPid k = true) : Benign s (holdSend b f k s) := by
  rcases k with _ | _ | ⟨o, g⟩ | _ | _ | ⟨_ | o, g, _⟩
  case rxBridge => exact .rx s o _
  case frame.rxTask => exact .rx s o _
  case pid => cases h
  all_goals exact .held s _ rfl

theorem Benign.send {b f k} (hk : SendCont.notPid k = true) (h : sendThen b f k s = .next t) : Benign s t := by
  rcases (sendThen_next h).2 with ⟨r, s', he, rfl⟩ | ⟨_, rfl⟩
  · exact (Benign.sendEffect he).trans (Benign.finish _ k r hk)
  · exact Benign.hold s b f k hk

theorem Benign.process {c f} (h : processFrame c f s = .next t) : Benign s t := by
  rcases processFrame_next h with ⟨_, _, h⟩ | ⟨_, rfl⟩
  · exact Benign.send rfl h
  · exact (Benign.emit s _).trans ((Benign.book _).trans (Benign.done _ c f))

theorem Benign.handle {c f} (h : handleFrame c f s = .next t) : Benign s t := by
  rcases (handleFrame_next h).2 with ⟨_, _, rfl⟩ | ⟨_, rfl⟩ | ⟨_, _, h⟩
  · exact Benign.done s c f
  · exact (Benign.log s _).trans (Benign.done _ c f)
  · exact Benign.process h

theorem Benign.bridge {b f k done} (hk : SendCont.notPid k = true) (hd : ∀ u w, Benign u (done u w))
    (h : bridgeFrame b f k done s = .next t) : Benign s t := by
  rcases (bridgeFrame_next h).2 with ⟨_, rfl⟩ | ⟨_, _, rfl⟩ | ⟨_, o, _, h⟩
  · exact (Benign.log s _).trans (hd _ _)
  · exact hd s _
  · exact Benign.send hk h

theorem Benign.receive {b f r} (h : receiveLook b s = some (f, r, t)) : Benign s t := by
  rcases receiveLook_cases b s with ⟨g, rest, hq, e⟩ | ⟨_, _, e⟩ | ⟨_, _, e⟩ <;> rw [e] at h <;> cases h
  · refine ⟨.of ⟨rfl, rfl, rfl, rfl, rfl⟩ rfl, .set rfl fun i => ⟨?_, i.2, i.3, i.4, i.5⟩, .of_eq rfl rfl⟩
    have := i.1; rw [hq] at this; simp at this ⊢; omega
  · exact .refl s

theorem Benign.rxStep {b} (h : execRxTaskStep b s = .next t) : Benign s t := by
  obtain ⟨_, h⟩ := onTransport_next.1 h
  have hr : ∀ h : rxTaskReceive b s = .next t, Benign s t := by
    intro h
    unfold rxTaskReceive at h
    split at h <;> cases h
    · exact (Benign.receive (by assumption)).trans (Benign.rx _ b _)
    · exact (Benign.receive (by assumption)).trans (Benign.rx _ b _)
    · exact Benign.rx s b _
  split at h
  · split at h
    · exact hr h
    · cases h; exact Benign.log s _
  · exact hr h
  · exact Benign.bridge rfl (fun u w => Benign.rx u b _) h
  · split at h <;> cases h
    · exact (Benign.sendEffect (sendLook_effect (by assumption))).trans (Benign.finish _ _ _ rfl)
    · exact .refl s
  · exact Benign.handle h
  · split at h <;> cases h
    · exact (Benign.sendEffect (sendLook_effect (by assumption))).trans (Benign.finish _ _ _ rfl)
    · exact .refl s

theorem Benign.poll (h : execCheckForTimeout s = .next t) : Benign s t := by
  obtain ⟨_, h⟩ := onElm_next.1 h
  have hu : s.pend.valid = true → Benign s s.closeUnanswered := by
    intro hv
    unfold State.closeUnanswered; split
    · exact Benign.closeOut s
    · exact (Benign.update s _).trans ((Benign.pendSet (s.updateTimeout _) { s.pend with processed :=
        true } hv hv).trans (Benign.closeOut _))
  split at h
  · cases h; exact .refl s
  · next hc =>
    have hv : s.pend.valid = true := by simp at hc; exact hc.2
    split at h
    · cases h; exact Benign.log s _
    · split at h <;> cases h
      · split
        · exact Benign.closeOut s
        · exact .refl s
      · split
        · exact hu hv
        · exact .refl s

theorem Benign.tx (h : execTxStep s = .next t) : Benign s t := by
  obtain ⟨_, h⟩ := onTransport_next.1 h
  split at h <;> cases h
  · next b hb =>
    unfold State.transmit
    dsimp only
    split
    · next f rest hq =>
      refine ⟨.of ⟨rfl, rfl, rfl, rfl, rfl⟩ rfl, .set (b :=
          BitVec.ofNat 8 b) rfl fun i => ⟨i.1, ?_, i.3, i.4, i.5⟩, .of_eq rfl rfl⟩
      have := i.2; rw [hq] at this; simp at this ⊢; omega
    · exact .refl s
  · exact .refl s

end Sys2Proof.Machine
end

