-- ==== Sys2Proof/Tests/Slice0.lean ====
section
/-! SUPPORT. Tests: the WellFormed smoke, the decoding of words written out from the tables of spec/30_encoding.md,
vectors of spec/95_test_vectors.md, and for every obligation with hypotheses a state and operands that meet them. -/

namespace Sys2Proof.Tests

open Sys2Proof Sys2Proof.Machine

/-! ## Helpers -/

/-- The state after one instruction. -/
def on (s : State) (i : Instr) : Option State := nextOf (exec i s)

/-- A frame with a standard identifier. -/
def std (id : BitVec 29) (dlc : Fin 9) (data : Payload) : CanFrame := ⟨id, false, false, dlc, data⟩

/-- A frame with an extended identifier. -/
def ext (id : BitVec 29) (dlc : Fin 9) (data : Payload) : CanFrame := ⟨id, true, false, dlc, data⟩

/-- Bus `b` enabled and started at 500000, as `ENABLE(b, 500000)` leaves it. -/
def up (b : BusIx) (s : State) : State :=
  s.setBus b
    { s.bus b with
      cfg := { enabled := true, listenOnly := false, bitrate := 500000 }
      ctrlRunning := true, ctrlRate := 500000, irqRegistered := true, ctrlCmd := [.start 500000] }

/-- T1-bus0 (spec/95_test_vectors.md section 0). -/
def bus0 : State := { up 0 State.reset with log := [] }

/-- The start of the bridge vectors: buses 1 and 2 up, the pair (1, 2). -/
def bridged : State := { up 1 (up 2 State.reset) with log := [], bridge := { a := 1, b := 2 } }

/-- T1-bus0 with both places of `TXQ[0]` taken. -/
def full : State := bus0.setBus 0 { bus0.bus 0 with txq := [frA, frB] }
where
  frA : CanFrame := std 0x100 1 ⟨0xA1, 0, 0, 0, 0, 0, 0, 0⟩
  frB : CanFrame := std 0x101 2 ⟨0xB1, 0xB2, 0, 0, 0, 0, 0, 0⟩

/-- T1-bus0 with one frame in `RXQ[0]`. -/
def received : State := bus0.setBus 0 { bus0.bus 0 with rxq := [full.frA] }

/-- T1-bus0 with both places of `RXQ[0]` taken. -/
def rxFull : State := bus0.setBus 0 { bus0.bus 0 with rxq := [full.frA, full.frB] }

/-- T1-bus0 listening only, and T1-bus0 with one place left in `TXQ[0]`. -/
def silent : State := bus0.setBus 0 { bus0.bus 0 with cfg := { enabled := true, listenOnly := true, bitrate := 500000 } }
def half : State := bus0.setBus 0 { bus0.bus 0 with txq := [full.frA] }

/-- An outstanding request `01 05` sent at 1000 with `expected` frames, read at `now`. -/
def asked (expected : Byte) (now : Word32) : State :=
  { bus0 with pend := armedRequest 0x01 0x0005 expected 1000, clock := now }

/-- `s` with one listed stimulus. -/
def next (a : Action) (d : Draws) (s : State) : State := { s with script := [{ action := a, draws := d }] }

/-- Draws with the lock refused, with a hold, and with the persistence refused. -/
def noLock : Draws := { Config.plainDraws with lockOk := false }
def hold : Draws := { Config.plainDraws with giveUp := false }
def noPersist : Draws := { Config.plainDraws with persistOk := false }

/-- `SF`, `FF` and `CF1` of spec/95_test_vectors.md B8. -/
def frSF : CanFrame := std 0x7E8 8 ⟨0x03, 0x41, 0x05, 0x3C, 0, 0, 0, 0⟩
def frFF : CanFrame := std 0x7E8 8 ⟨0x10, 0x14, 0x49, 0x02, 0x01, 0x31, 0x44, 0x34⟩
def frX : CanFrame := std 0x123 2 ⟨0xDE, 0xAD, 0, 0, 0, 0, 0, 0⟩

/-! ## WellFormed: what each check refuses -/

theorem test_wf_unknown_at_needs_its_own_class :
    (Instr.unknownAt [0x41, 0x54, 0x5A]).wf = false ∧ (Instr.unknownAt [0x61, 0x74, 0x78]).wf = false ∧
      (Instr.unknownAt [0x48, 0x45, 0x4C, 0x4C, 0x4F]).wf = false ∧ (Instr.unknownAt [0x41, 0x54, 0x58]).wf = true := by decide

theorem test_wf_unknown_at_needs_a_line :
    (Instr.unknownAt []).wf = false ∧ (Instr.unknownAt [0x41, 0x54, 0x58, 0x0D]).wf = false ∧
      (Instr.unknownAt [0x41, 0x54, 0x0A, 0x58]).wf = false := by decide

theorem test_wf_malformed_at_needs_its_own_class :
    (Instr.malformedAt [0x41, 0x54, 0x45, 0x31]).wf = false ∧ (Instr.malformedAt [0x61, 0x74, 0x65, 0x32]).wf = false ∧
      (Instr.malformedAt [0x41, 0x54, 0x58]).wf = false ∧ (Instr.malformedAt [0x41, 0x54, 0x45, 0x32]).wf = true := by decide

theorem test_wf_malformed_at_needs_a_line :
    (Instr.malformedAt []).wf = false ∧ (Instr.malformedAt [0x41, 0x54, 0x45, 0x0D]).wf = false := by decide

theorem test_wf_invalid_line_needs_its_own_class :
    (Instr.invalidLine [0x30, 0x31, 0x30, 0x35]).wf = false ∧ (Instr.invalidLine [0x68, 0x65, 0x6C, 0x6C, 0x6F]).wf = false ∧
      (Instr.invalidLine [0x41, 0x54, 0x45, 0x32]).wf = false ∧ (Instr.invalidLine [0x48, 0x45, 0x4C, 0x4C, 0x4F]).wf = true := by decide

theorem test_wf_invalid_line_needs_a_line :
    (Instr.invalidLine []).wf = false ∧ (Instr.invalidLine [0x4E, 0x4F, 0x0A]).wf = false := by decide

theorem test_wf_dispatch_line_holds_no_terminator :
    (Instr.dispatchLine [0x41, 0x54, 0x5A, 0x0D]).wf = false ∧ (Instr.dispatchLine [0x0A]).wf = false ∧
      (Instr.dispatchLine [0x61, 0x74, 0x7A]).wf = true ∧ (Instr.dispatchLine []).wf = true := by decide

theorem test_events_have_no_encoding :
    Instr.txStep.isEncoded = false ∧ Instr.reset.isEncoded = false ∧ Instr.atz.isEncoded = true := by decide

/-! ## Decoding: one word written out for every encoded instruction -/

theorem test_decode_enable :
    decode .api [0x00, 0x02, 0x90, 0xD0, 0x03, 0x00] = .ok (.enable 2 250000, []) := by decide

theorem test_decode_disable :
    decode .api [0x01, 0x01] = .ok (.disable 1, []) := by decide

theorem test_decode_set_bitrate :
    decode .api [0x02, 0x00, 0x48, 0xE8, 0x01, 0x00] = .ok (.setBitrate 0 125000, []) := by decide

theorem test_decode_set_listenonly :
    decode .api [0x03, 0x02, 0x01, 0x00, 0x00, 0x00] = .ok (.setListenOnly 2 true, []) := by decide

theorem test_decode_is_enabled :
    decode .api [0x04, 0x03] = .ok (.isEnabled 3, []) := by decide

theorem test_decode_get_bitrate :
    decode .api [0x05, 0x01] = .ok (.getBitrate 1, []) := by decide

theorem test_decode_is_listenonly :
    decode .api [0x06, 0x02] = .ok (.isListenOnly 2, []) := by decide

theorem test_decode_send :
    decode .api [0x07, 0x01, 0xF1, 0x33, 0xDB, 0x98, 0x02, 0x09, 0x02, 0, 0, 0, 0, 0, 0x55] = .ok (.send 1 ⟨0x18DB33F1, true, false, 2, ⟨0x09, 0x02, 0, 0, 0, 0, 0, 0x55⟩⟩, []) := by decide

theorem test_decode_receive :
    decode .api [0x08, 0x00] = .ok (.receive 0, []) := by decide

theorem test_decode_get_rx_buffered_frames :
    decode .api [0x09, 0x01] = .ok (.getRxBufferedFrames 1, []) := by decide

theorem test_decode_get_tx_buffered_frames :
    decode .api [0x0A, 0x02] = .ok (.getTxBufferedFrames 2, []) := by decide

theorem test_decode_get_rx_overflow_count :
    decode .api [0x0B, 0x00] = .ok (.getRxOverflowCount 0, []) := by decide

theorem test_decode_get_tx_overflow_count :
    decode .api [0x0C, 0x01] = .ok (.getTxOverflowCount 1, []) := by decide

theorem test_decode_get_num_busses :
    decode .api [0x0D] = .ok (.getNumBusses, []) := by decide

theorem test_decode_set_num_busses :
    decode .api [0x0E, 0x02, 0x00, 0x00, 0x00] = .ok (.setNumBusses 2, []) := by decide

theorem test_decode_get_statistics :
    decode .api [0x0F, 0x01] = .ok (.getStatistics 1, []) := by decide

theorem test_decode_set_bridge :
    decode .api [0x10, 0x01, 0x02, 0x00, 0x00, 0x00] = .ok (.setBridge 1 2, []) := by decide

theorem test_decode_handle_bridge :
    decode .api [0x11, 0x01, 0x23, 0x01, 0x00, 0x40, 0x00, 1, 2, 3, 4, 5, 6, 7, 8] = .ok (.handleBridge 1 ⟨0x123, false, true, 0, ⟨1, 2, 3, 4, 5, 6, 7, 8⟩⟩, []) := by decide

/-- `line`, then CR, on port `HOST_IN`. -/
def lineDecodes (line : Bytes) (i : Instr) : Bool :=
  match decode .hostIn (line ++ [0x0D]) with
  | .ok (j, rest) => j == i && rest.isEmpty
  | .error _ => false

theorem test_decode_atdesc :
    lineDecodes [0x41, 0x54, 0x44, 0x45, 0x53, 0x43] (.atdesc) = true := by decide

theorem test_decode_atsp :
    lineDecodes [0x41, 0x54, 0x53, 0x50, 0x37] (.atsp .p7) = true := by decide

theorem test_decode_atat :
    lineDecodes [0x41, 0x54, 0x41, 0x54, 0x30] (.atat false) = true := by decide

theorem test_decode_atst :
    lineDecodes [0x41, 0x54, 0x53, 0x54, 0x33, 0x32] (.atst 0x32) = true := by decide

theorem test_decode_atdp :
    lineDecodes [0x41, 0x54, 0x44, 0x50, 0x4E] (.atdp true) = true := by decide

theorem test_decode_atpc :
    lineDecodes [0x41, 0x54, 0x50, 0x43] (.atpc) = true := by decide

theorem test_decode_atrv :
    lineDecodes [0x41, 0x54, 0x52, 0x56] (.atrv) = true := by decide

theorem test_decode_at1 :
    lineDecodes [0x41, 0x54, 0x40, 0x31] (.at1) = true := by decide

theorem test_decode_atsh :
    lineDecodes [0x41, 0x54, 0x53, 0x48, 0x31, 0x46, 0x46, 0x46, 0x46, 0x46, 0x46, 0x46] (.atsh 0x1FFFFFFF) = true := by decide

theorem test_decode_atma :
    lineDecodes [0x41, 0x54, 0x4D, 0x41, 0x31] (.atma true) = true := by decide

theorem test_decode_ate :
    lineDecodes [0x41, 0x54, 0x45, 0x31, 0x58] (.ate true) = true := by decide

theorem test_decode_atm :
    lineDecodes [0x41, 0x54, 0x4D, 0x31] (.atm true) = true := by decide

theorem test_decode_atl :
    lineDecodes [0x41, 0x54, 0x4C, 0x31] (.atl true) = true := by decide

theorem test_decode_ats :
    lineDecodes [0x41, 0x54, 0x53, 0x30] (.ats false) = true := by decide

theorem test_decode_ath :
    lineDecodes [0x61, 0x74, 0x68, 0x31] (.ath true) = true := by decide

theorem test_decode_atd :
    lineDecodes [0x41, 0x54, 0x44, 0x31] (.atd true) = true := by decide

theorem test_decode_atz :
    lineDecodes [0x41, 0x54, 0x5A, 0x5A, 0x5A] (.atz) = true := by decide

theorem test_decode_ati :
    lineDecodes [0x41, 0x54, 0x49, 0x58] (.ati) = true := by decide

theorem test_decode_pid4 :
    lineDecodes [0x30, 0x39, 0x30, 0x32] (.pid4 0x09 0x02) = true := by decide

theorem test_decode_pid5 :
    lineDecodes [0x30, 0x31, 0x30, 0x35, 0x61] (.pid5 0x01 0x05 10) = true := by decide

theorem test_decode_pid6 :
    lineDecodes [0x32, 0x32, 0x46, 0x31, 0x39, 0x30] (.pid6 0x22 0xF190) = true := by decide

theorem test_decode_pid7 :
    lineDecodes [0x32, 0x32, 0x66, 0x31, 0x39, 0x30, 0x31] (.pid7 0x22 0xF190 1) = true := by decide

theorem test_decode_unknown_at :
    lineDecodes [0x41, 0x54, 0x20, 0x53, 0x50, 0x20, 0x36] (.unknownAt [0x41, 0x54, 0x20, 0x53, 0x50, 0x20, 0x36]) = true := by decide

theorem test_decode_malformed_at :
    lineDecodes [0x41, 0x54, 0x53, 0x48, 0x32, 0x30, 0x30, 0x30, 0x30, 0x30, 0x30, 0x30] (.malformedAt [0x41, 0x54, 0x53, 0x48, 0x32, 0x30, 0x30, 0x30, 0x30, 0x30, 0x30, 0x30]) = true := by decide

theorem test_decode_invalid_line :
    lineDecodes [0x30, 0x31, 0x30, 0x35, 0x47] (.invalidLine [0x30, 0x31, 0x30, 0x35, 0x47]) = true := by decide

theorem test_decode_repeat :
    decode .hostIn [0x0D, 0x0A] = .ok (.repeatLine, [0x0A]) := by decide

theorem test_decode_refuses_by_name :
    decode .api [0x12] = .error (.reservedCode 0x12) ∧ decode .api [] = .error .truncated ∧
      decode .api [0x03, 0, 2, 0, 0, 0] = .error .flagNotZeroOne ∧ decode .api [0x0E, 0, 1, 0, 0] = .error .argumentTooWide ∧
      decode .api [0x07, 0, 0, 0, 0, 0x20, 0, 0, 0, 0, 0, 0, 0, 0, 0] = .error .reservedIdBit ∧
      decode .api [0x07, 0, 0, 0, 0, 0, 9, 0, 0, 0, 0, 0, 0, 0, 0] = .error .dlcAboveEight ∧
      decode .hostIn [0x41] = .error .unterminated := by decide

theorem test_table_words :
    decodeTableWord 8 0x00 = some (.enable 0 0) ∧ decodeTableWord 8 0x0D = some .getNumBusses ∧
      decodeTableWord 24 0x5A5441 = some .atz ∧
      decodeTableWord 48 0x435345445441 = some .atdesc := by decide

theorem test_fetch_word_runs :
    ((nextOf (step (State.reset.withFetchWord 8 0x0D))).map State.answers = some [.count 3]) ∧
      (nextOf (step (State.reset.withFetchWord 24 0x5A5441))).map State.hostOut = some [0x0D, 0x4F, 0x4B, 0x0D, 0x0D, 0x3E] := by decide

/-! ## Reset -/

theorem test_reset_is_its_own_sequence :
    exec .reset State.reset = .next State.reset := rfl

/-- V14. -/
theorem test_reset_loads_a_valid_record :
    (on { up 0 State.reset with
        nvm := { valid := true, busCount := 2, busConfig := [⟨true, true, 250000⟩, ⟨false, false, 500000⟩, ⟨false, false, 500000⟩,
          ⟨false, false, 500000⟩] } } .reset).map
      (fun t => (t.numBusses, (t.bus 0).cfg, (t.bus 0).ctrlCmd, t.log)) =
        some (2, ⟨true, true, 250000⟩, [.start 250000], []) := by decide

/-! ## Transport Core (vectors B1, B2, B3) -/

/-- V3. -/
theorem test_enable_v1_v3 :
    (on State.reset (.enable 0 2000000)).map (fun t => ((t.bus 0).cfg, (t.bus 0).ctrlCmd, (t.bus 0).irqRegistered, t.nvm.valid)) =
      some (⟨true, false, 1000000⟩, [.start 1000000], true, true) := by decide

/-- V2. -/
theorem test_enable_again_v2 :
    (on bus0 (.enable 0 500000)).map (fun t => ((t.bus 0).cfg, (t.bus 0).ctrlCmd, (t.bus 0).irqRegistered, t.nvm.valid)) =
      some (⟨true, false, 500000⟩, [.start 500000, .stop, .start 500000], true, true) := by decide

/-- V5. -/
theorem test_disable_v5 :
    (on bus0 (.disable 0)).map (fun t => ((t.bus 0).cfg, (t.bus 0).ctrlCmd, (t.bus 0).irqRegistered, t.nvm.valid)) =
      some (⟨false, false, 500000⟩, [.start 500000, .stop], true, true) := by decide

/-- V6. -/
theorem test_disable_v6 :
    (on State.reset (.disable 3)).map (fun t => (t.log, t.nvm.valid)) = some ([.persistFail, .invalidBus 3], false) := by decide

/-- V7. -/
theorem test_set_bitrate_v7 :
    (on bus0 (.setBitrate 0 250000)).map (fun t => ((t.bus 0).cfg, (t.bus 0).ctrlCmd, (t.bus 0).irqRegistered, t.nvm.valid)) =
      some (⟨true, false, 250000⟩, [.start 500000, .stop, .start 250000], true, true) := by decide

/-- V9. -/
theorem test_set_bitrate_v9 :
    (on bus0 (.setBitrate 0 500000)).map (fun t => ((t.bus 0).cfg, (t.bus 0).ctrlCmd, (t.bus 0).irqRegistered, t.nvm.valid)) =
      some (⟨true, false, 500000⟩, [.start 500000, .stop, .start 500000], true, false) := by decide

/-- V10. -/
theorem test_set_listenonly_v10 :
    (on bus0 (.setListenOnly 0 true)).map (fun t => ((t.bus 0).cfg, (t.bus 0).ctrlCmd, (t.bus 0).irqRegistered, t.nvm.valid)) =
      some (⟨true, true, 500000⟩, [.start 500000], true, true) := by decide

/-- V11. -/
theorem test_set_listenonly_v11 :
    (on State.reset (.setListenOnly 0 false)).map (fun t => ((t.bus 0).cfg, (t.bus 0).ctrlCmd, (t.bus 0).irqRegistered, t.nvm.valid)) =
      some (⟨false, false, 500000⟩, [], false, false) := by decide

theorem test_is_enabled_v1 :
    (on bus0 (.isEnabled 0)).map State.answers = some [.bool true] := by decide

theorem test_get_bitrate_v1 :
    (on bus0 (.getBitrate 0)).map State.answers = some [.word 500000] := by decide

theorem test_is_listenonly_v1 :
    (on bus0 (.isListenOnly 0)).map State.answers = some [.bool false] := by decide

/-- V12. -/
theorem test_getters_v12 :
    (on bus0 (.getBitrate 3)).map (fun t => (t.answers, t.log)) = some ([.word 0], [.invalidBus 3]) ∧
      (on bus0 (.isListenOnly 3)).map State.answers = some [.bool false] ∧
      (on bus0 (.getRxBufferedFrames 3)).map State.answers = some [.word 0] ∧
      (on bus0 (.getStatistics 3)).map State.answers = some [.stats false none] := by decide

theorem test_get_rx_buffered_frames :
    (on received (.getRxBufferedFrames 0)).map State.answers = some [.word 1] := by decide

theorem test_get_tx_buffered_frames :
    (on full (.getTxBufferedFrames 0)).map State.answers = some [.word 2] := by decide

theorem test_get_overflow_counts :
    (on (full.dropTx 0) (.getTxOverflowCount 0)).map State.answers = some [.word 1] ∧
      (on (full.dropTx 0) (.getRxOverflowCount 0)).map State.answers = some [.word 0] := by decide

/-- V13. -/
theorem test_set_num_busses_v13 :
    (on State.reset (.setNumBusses 2)).map (fun t => (t.numBusses, t.nvm.busCount, t.nvm.valid)) = some (2, 2, true) ∧
      (on State.reset (.setNumBusses 4)).isNone = true := by decide

/-- V15, V16. -/
theorem test_persist_v15_v16 :
    (on { State.reset with draws := noPersist } .persist).map (fun t => (t.nvm.valid, t.log)) =
        some (false, [.persistFail, .persistFail]) ∧
      (on { State.reset with draws := noLock } .persist).map (fun t => (t.nvm.valid, t.log)) =
        some (false, [.persistFail, .lockTimeout]) := by decide

/-- V17. -/
theorem test_load_settings_v17 :
    (on { bus0 with nvm := { valid := true, busCount := 4, busConfig := bus0.cfgs } } .loadSettings).map
      (fun t => (t.numBusses, (t.bus 0).cfg, t.log)) = some (3, ⟨false, false, 500000⟩, [.persistFail]) := by decide

/-- V20. -/
theorem test_send_v20 :
    (on bus0 (.send 0 full.frA)).map (fun t => ((t.bus 0).txq, (t.bus 0).txOverflow, t.log, t.answers)) = some ([full.frA], 0, [], [.code 0]) := by decide

/-- V24. -/
theorem test_send_v24 :
    (on full (.send 0 frX)).map (fun t => ((t.bus 0).txq, (t.bus 0).txOverflow, t.log, t.answers)) =
      some ([full.frA, full.frB], 1, [.queueFull 0], [.code (-4)]) := by decide

/-- V26, its hold. -/
theorem test_send_holds_v26 :
    (on { full with draws := hold } (.send 0 frX)).map (fun t => (t.held, t.answers)) =
      some ([.send 0 frX .client], []) := by decide

/-- V27. -/
theorem test_rx_event_v27 :
    (on rxFull (.rxEvent 0 frX)).map (fun t => ((t.bus 0).rxq, (t.bus 0).rxOverflow, t.log)) =
      some ([full.frA, full.frB], 1, []) := by decide

/-- V32. -/
theorem test_rx_event_v32 :
    (on (rxFull.setBus 0 { rxFull.bus 0 with rxOverflow := 0xFFFFFFFF }) (.rxEvent 0 frX)).map
      (fun t => (t.bus 0).rxOverflow) = some 0 := by decide

/-- V28. -/
theorem test_receive_v28 :
    (on rxFull (.receive 0)).map (fun t => ((t.bus 0).rxq, t.answers)) =
        some ([full.frB], [.received 1 (some full.frA)]) ∧
      (on bus0 (.receive 0)).map (fun t => (t.answers, t.log)) = some ([.received (-5) none], []) := by decide

/-- V31, its third step, and V30, its first. -/
theorem test_tx_step_v31 :
    (on { up 0 (up 2 (State.reset.setBus 0 { State.reset.bus 0 with txq := [full.frA] })) with arbPtr := 1 } .txStep).map
        (fun t => (t.arbPtr, (t.bus 0).canOut)) = some (1, [full.frA]) ∧
      (on { full with arbPtr := 1 } .txStep).map (fun t => (t.arbPtr, (t.bus 0).canOut, (t.bus 0).txq)) =
        some (0, [full.frA], [full.frB]) := by decide

/-- V39, V39b. -/
theorem test_set_bridge_v39 :
    (on { State.reset with draws := noLock } (.setBridge 1 2)).map (fun t => (t.bridge, t.log)) =
        some ({ a := 0, b := 0 }, [.persistFail, .lockTimeout]) ∧
      (on State.reset (.setBridge 1 3)).map State.bridge = some { a := 1, b := 3 } := by decide

/-- V34, V36. -/
theorem test_handle_bridge_v34_v36 :
    (on bridged (.handleBridge 1 frX)).map (fun t => ((t.bus 2).txq, t.answers)) = some ([frX], [.bool true]) ∧
      (on bridged (.handleBridge 0 frX)).map (fun t => ((t.bus 2).txq, t.answers)) = some ([], [.bool false]) := by decide

/-- V38. -/
theorem test_handle_bridge_v38 :
    (on (bridged.setBus 2 { bridged.bus 2 with cfg := { enabled := true, listenOnly := true, bitrate := 500000 } })
        (.handleBridge 1 frX)).map (fun t => (t.answers, t.log, (t.bus 2).txOverflow)) =
      some ([.bool false], [.listenOnly 2], 0) := by decide

theorem test_rx_task_step_takes_the_head :
    (on received (.rxTaskStep 0)).map (fun t => ((t.bus 0).rxq, (t.bus 0).rxTask)) = some ([], .bridging full.frA) := by decide

/-! ## State Machine Engine (vectors B5) -/

/-- The engines' current identities after an operation, with its answers. -/
def engineView (t : State) : List (Nat × Bool) × List Answer := (t.engines.map fun e => (e.current, e.faulted), t.answers)

/-- V55, V56. -/
theorem test_fsm_step_v55_v56 :
    (on State.reset (.fsmStep ⟨0, 0x41⟩)).map engineView = some ([(0, false)], [.sideOutput 1]) ∧
      (on State.reset (.fsmStep ⟨0, 0x42⟩)).map engineView = some ([(0, false)], [.sideOutput 0]) := by decide

/-- The handlers of V57 (`idle` answers an unregistered identity to 0x43) and of V58 (a cascade without end). -/
def ghost : FsmRegistry :=
  [(0, { tickRows := [{ user := 0, byte := 0x43, next := 9, out := 3, userAfter := 0 }], tickNext := 0, tickOut := 0
         enterRows := [], enterNext := 0, exitRows := [] })]
def endless : FsmRegistry := [(0, Config.fsmIdle), (1, { Config.fsmDispatch with enterNext := 2 }),
  (2, { Config.fsmDispatch with enterNext := 1 })]

/-- T1-bus0 with one engine instance for each registry of `rs`. -/
def withRegistries (rs : List FsmRegistry) : State :=
  let ps := rs.map fun r => ({ registry := r, initial := 0, userInit := 0 } : FsmParams)
  { bus0 with inst := { bus0.inst with engines := ps }, engines := ps.map FsmParams.fresh }

/-- V57, V58. -/
theorem test_fsm_step_v57_v58 :
    (on (withRegistries [ghost]) (.fsmStep ⟨0, 0x43⟩)).map (fun t => (engineView t, t.log)) =
        some (([(0, true)], [.sideOutput 3]), [.unknownState 9]) ∧
      exec (.fsmStep ⟨0, 0x41⟩) (withRegistries [endless]) = .fault .fsmHang := ⟨by decide, rfl⟩

/-- Two states whose entering stays: `0` goes to `1` on 0x41. -/
def settling : FsmRegistry := [(0, Config.fsmIdle), (1, { Config.fsmDispatch with enterNext := 1 })]

/-- Two instances share nothing (R180): what one does leaves the other where it is. -/
theorem test_fsm_instances_share_nothing :
    (on (withRegistries [settling, settling]) (.fsmStep ⟨1, 0x41⟩)).map engineView =
        some ([(0, false), (1, false)], [.sideOutput 1]) ∧
      (on (withRegistries [ghost, settling]) (.fsmStep ⟨0, 0x43⟩)).map engineView =
        some ([(0, true), (0, false)], [.sideOutput 3]) := by decide

/-! ## Emulator: host commands (vectors B6, B7) -/

/-- V60. -/
theorem test_ate_v60 :
    (on bus0 (.ate false)).map (fun t => (t.sess, t.hostOut)) = some ({ bus0.sess with echo := false }, [0x0D, 0x4F, 0x4B, 0x0D, 0x0D, 0x3E]) := by decide

/-- V61. -/
theorem test_atl_v61 :
    (on bus0 (.atl true)).map (fun t => (t.sess, t.hostOut)) = some ({ bus0.sess with linefeed := true }, [0x0D, 0x0A, 0x4F, 0x4B, 0x0D, 0x0A, 0x3E]) := by decide

/-- V62. -/
theorem test_atma_v62 :
    (on bus0 (.atma true)).map (fun t => (t.sess, t.hostOut)) = some ({ bus0.sess with monitor := true }, [0x0D, 0x4F, 0x4B, 0x0D, 0x0D, 0x3E]) := by decide

/-- V63. -/
theorem test_atm_v63 :
    (on bus0 (.atm true)).map (fun t => (t.sess, t.hostOut)) = some ({ bus0.sess with memory := true }, [0x0D, 0x4F, 0x4B, 0x0D, 0x0D, 0x3E]) := by decide

/-- V66. -/
theorem test_atd_v66 :
    (on bus0 (.atd true)).map (fun t => (t.sess, t.hostOut)) = some ({ bus0.sess with dlcDisplay := true }, [0x0D, 0x4F, 0x4B, 0x0D, 0x0D, 0x3E]) := by decide

/-- V70. -/
theorem test_ats_v70 :
    (on bus0 (.ats false)).map (fun t => (t.sess, t.hostOut)) = some ({ bus0.sess with whitespace := false }, [0x0D, 0x4F, 0x4B, 0x0D, 0x0D, 0x3E]) := by decide

/-- V71. -/
theorem test_atsp_v71 :
    (on bus0 (.atsp .p8)).map (fun t => (t.sess, t.hostOut)) = some ({ bus0.sess with extended := false }, [0x0D, 0x4F, 0x4B, 0x0D, 0x0D, 0x3E]) := by decide

/-- V72. -/
theorem test_atsp_v72 :
    (on bus0 (.atsp .p9)).map (fun t => (t.sess, t.hostOut)) = some ({ bus0.sess with extended := true }, [0x0D, 0x4F, 0x4B, 0x0D, 0x0D, 0x3E]) := by decide

/-- V74. -/
theorem test_atsh_v74 :
    (on bus0 (.atsh 0x7E0)).map (fun t => (t.sess, t.hostOut)) = some ({ bus0.sess with headerId := 0x7E0 }, [0x0D, 0x4F, 0x4B, 0x0D, 0x0D, 0x3E]) := by decide

/-- V77. -/
theorem test_atst_v77 :
    (on bus0 (.atst 0xFF)).map (fun t => (t.sess, t.hostOut)) = some ({ bus0.sess with timeoutMs := 1020 }, [0x0D, 0x4F, 0x4B, 0x0D, 0x0D, 0x3E]) := by decide

/-- V79. -/
theorem test_atat_v79 :
    (on bus0 (.atat false)).map (fun t => (t.sess, t.hostOut)) = some ({ bus0.sess with adaptive := false }, [0x0D, 0x4F, 0x4B, 0x0D, 0x0D, 0x3E]) := by decide

/-- V85. -/
theorem test_ath_v85 :
    (on bus0 (.ath true)).map (fun t => (t.sess, t.hostOut)) = some ({ bus0.sess with headers := true }, [0x0D, 0x4F, 0x4B, 0x0D, 0x0D, 0x3E]) := by decide

/-- V84. -/
theorem test_atpc_v84 :
    (on bus0 .atpc).map State.hostOut = some [0x0D, 0x4F, 0x4B, 0x0D, 0x0D, 0x3E] := by decide

/-- V83. -/
theorem test_atz_v83 :
    (on { bus0 with sess := { bus0.sess with headers := true, linefeed := true } } .atz).map (fun t => (t.sess, t.hostOut)) =
      some (bus0.sess, [0x0D, 0x4F, 0x4B, 0x0D, 0x0D, 0x3E]) := by decide

/-- T1-bus0 with texts of its own in place of the symbolic ones. -/
def worded : State :=
  { bus0 with
    inst := { bus0.inst with
      strAti := [0x49], strAt1 := [0x31], strAtdesc := [0x44], strAtrv := [0x52]
      strAtdp := { extended := [0x45], standard := [0x53] }, strAtdpn := { extended := [0x65], standard := [0x73] } } }

theorem test_atdesc_v65 :
    (on worded (.atdesc)).map State.hostOut = some [0x44, 0x0D, 0x4F, 0x4B, 0x0D, 0x0D, 0x3E] := by decide

theorem test_atrv_v84 :
    (on worded (.atrv)).map State.hostOut = some [0x52, 0x0D, 0x4F, 0x4B, 0x0D, 0x0D, 0x3E] := by decide

theorem test_at1_v84 :
    (on worded (.at1)).map State.hostOut = some [0x31, 0x0D, 0x4F, 0x4B, 0x0D, 0x0D, 0x3E] := by decide

theorem test_ati_v84 :
    (on worded (.ati)).map State.hostOut = some [0x49, 0x0D, 0x4F, 0x4B, 0x0D, 0x0D, 0x3E] := by decide

theorem test_atdp_v67 :
    (on worded (.atdp false)).map State.hostOut = some [0x53, 0x0D, 0x4F, 0x4B, 0x0D, 0x0D, 0x3E] := by decide

theorem test_atdp_v68 :
    (on worded (.atdp true)).map State.hostOut = some [0x73, 0x0D, 0x4F, 0x4B, 0x0D, 0x0D, 0x3E] := by decide

/-- V80. -/
theorem test_unknown_at_v80 :
    (on bus0 (.unknownAt [0x41, 0x54, 0x58])).map (fun t => (t.hostOut, t.log)) =
      some ([0x0D, 0x4F, 0x4B, 0x0D, 0x0D, 0x3E], [.unknownAt [0x41, 0x54, 0x58]]) := by decide

/-- V80, the other reply. -/
theorem test_unknown_at_question_v80 :
    (on { bus0 with inst := { bus0.inst with unknownAtReply := .question } } (.unknownAt [0x41, 0x54, 0x58])).map
      State.hostOut = some [0x3F, 0x0D, 0x3E] := by decide

/-- V81. -/
theorem test_malformed_at_v81 :
    (on bus0 (.malformedAt [0x41, 0x54, 0x45, 0x32])).map (fun t => (t.hostOut, t.log)) =
      some ([0x0D, 0x4F, 0x4B, 0x0D, 0x0D, 0x3E], [.malformedAt [0x41, 0x54, 0x45, 0x32]]) := by decide

/-- V86. -/
theorem test_invalid_line_v86 :
    (on bus0 (.invalidLine [0x41])).map (fun t => (t.hostOut, t.log)) =
      some ([0x3F, 0x0D, 0x3E], [.badCommand [0x41]]) := by decide

/-- V87, V88. -/
theorem test_repeat_v87_v88 :
    (on bus0 .repeatLine).map State.hostOut = some [] ∧
      (on { bus0 with lastCmd := [0x61, 0x74, 0x6C, 0x31] } .repeatLine).map (fun t => (t.hostOut, t.lastCmd)) =
        some ([0x0D, 0x0A, 0x4F, 0x4B, 0x0D, 0x0A, 0x3E], [0x61, 0x74, 0x6C, 0x31]) := by decide

/-- V85. -/
theorem test_dispatch_line_v85 :
    (on bus0 (.dispatchLine [0x61, 0x74, 0x68, 0x31])).map (fun t => (t.sess.headers, t.lastCmd, t.hostOut)) =
      some (true, [0x61, 0x74, 0x68, 0x31], [0x0D, 0x4F, 0x4B, 0x0D, 0x0D, 0x3E]) := by decide

/-- V89, its CR. -/
theorem test_host_byte_v89 :
    (on { bus0 with lineBuf := [0x41, 0x54, 0x48, 0x31] } (.hostByte 0x0D)).map (fun t => (t.sess.headers, t.lineBuf, t.lastCmd)) =
      some (true, [], [0x41, 0x54, 0x48, 0x31]) := by decide

/-- V90. -/
theorem test_pid4_v90 :
    (on { bus0 with clock := 1000 } (.pid4 0x01 0x05)).map (fun t => ((t.bus 0).txq, t.pend, t.hostOut)) =
      some ([std 0x7DF 8 ⟨0x02, 0x01, 0x05, 0, 0, 0, 0, 0⟩], armedRequest 0x01 0x0005 0 1000, []) := by decide

/-- V99. -/
theorem test_pid4_v99 :
    (on { State.reset with log := [] } (.pid4 0x01 0x05)).map (fun t => ((t.bus 0).txq, t.pend.valid, t.log)) =
      some ([], true, [.notEnabled 0]) := by decide

/-- V92. -/
theorem test_pid5_v92 :
    (on bus0 (.pid5 0x01 0x05 10)).map (fun t => ((t.bus 0).txq, t.pend, t.hostOut)) =
      some ([std 0x7DF 8 ⟨0x02, 0x01, 0x05, 0, 0, 0, 0, 0⟩], armedRequest 0x01 0x0005 10 0, []) := by decide

/-- V98, with a count. -/
theorem test_pid5_v98 :
    (on { bus0 with sess := { bus0.sess with extended := true, headerId := 0x18DB33F1 } } (.pid5 0x01 0x05 1)).map
      (fun t => (t.bus 0).txq) = some [ext 0x18DB33F1 8 ⟨0x02, 0x01, 0x05, 0, 0, 0, 0, 0⟩] := by decide

/-- V94. -/
theorem test_pid6_v94 :
    (on bus0 (.pid6 0x22 0xF190)).map (fun t => ((t.bus 0).txq, t.pend, t.hostOut)) =
      some ([std 0x7DF 8 ⟨0x03, 0x22, 0xF1, 0x90, 0, 0, 0, 0⟩], armedRequest 0x22 0xF190 0 0, []) := by decide

/-- V95. -/
theorem test_pid7_v95 :
    (on bus0 (.pid7 0x22 0xF190 1)).map (fun t => ((t.bus 0).txq, t.pend, t.hostOut)) =
      some ([std 0x7DF 8 ⟨0x03, 0x22, 0xF1, 0x90, 0, 0, 0, 0⟩], armedRequest 0x22 0xF190 1 0, []) := by decide

/-! ## Emulator: responses (vectors B4, B8, B9, B10) -/

/-- V42. -/
theorem test_send_flow_control_v42 :
    (on bus0 (.sendFlowControl (std 0x7EA 8 frFF.data))).map (fun t => (t.bus 0).txq) =
      some [std 0x7E2 8 ⟨0x30, 0, 0, 0, 0, 0, 0, 0⟩] := by decide

/-- V48. -/
theorem test_send_flow_control_v48 :
    (on { bus0 with sess := { bus0.sess with extended := true } } (.sendFlowControl (ext 0x18DAF110 8 frFF.data))).map
      (fun t => (t.bus 0).txq) = some [ext 0x18DAF1F0 8 ⟨0x30, 0, 0, 0, 0, 0, 0, 0⟩] := by decide

/-- V53. -/
theorem test_handle_can_frame_v53 :
    (on bus0 (.handleCanFrame frFF)).map (fun t => ((t.bus 0).txq, t.hostOut, t.pend.valid)) =
      some ([std 0x7E0 8 ⟨0x30, 0, 0, 0, 0, 0, 0, 0⟩], [0x31, 0x30, 0x20, 0x31, 0x34, 0x20, 0x34, 0x39, 0x20, 0x30, 0x32, 0x20, 0x30, 0x31, 0x20, 0x33, 0x31, 0x20, 0x34, 0x34, 0x20, 0x33, 0x34, 0x0D], false) := by decide

/-- V166, V169. -/
theorem test_handle_can_frame_v166_v169 :
    (on bus0 (.handleCanFrame (std 0x7E7 8 frSF.data))).map State.hostOut = some [] ∧
      (on bus0 (.handleCanFrame (std 0x7F0 8 frSF.data))).map State.hostOut = some [] := by decide

/-- V150. -/
theorem test_process_can_frame_v150 :
    (on (asked 1 1040) (.processCanFrame frSF)).map (fun t => (t.hostOut, t.estAvg, t.sess.timeoutMs, t.pend)) =
      some ([0x34, 0x31, 0x20, 0x30, 0x35, 0x20, 0x33, 0x43, 0x0D, 0x0D, 0x3E], 82, 328, Pending.none) := by decide

/-- V52, V160. -/
theorem test_process_can_frame_v52 :
    (on { asked 0 5000 with sess := { bus0.sess with monitor := true } }
        (.processCanFrame (std 0x123 8 ⟨0x10, 0x14, 1, 2, 3, 4, 5, 6⟩))).map
      (fun t => (t.hostOut, t.pend, (t.bus 0).txq)) =
        some ([0x31, 0x30, 0x20, 0x31, 0x34, 0x20, 0x30, 0x31, 0x20, 0x30, 0x32, 0x20, 0x30, 0x33, 0x20, 0x30, 0x34, 0x20, 0x30, 0x35, 0x20, 0x30, 0x36, 0x0D], (asked 0 5000).pend, []) := by decide

/-- V54: the failing flow control is logged, the line is still written. -/
theorem test_process_can_frame_v54 :
    (on silent (.processCanFrame frFF)).map (fun t => (t.hostOut.length, t.log, (t.bus 0).txq)) =
      some (24, [.listenOnly 0], []) := by decide

/-- R297, R326: a flow control that holds keeps the line back; line and prompt come together when it completes. -/
theorem test_held_flow_control_keeps_bytes_together :
    (on { full with draws := hold, pend := armedRequest 0x09 0x0002 1 0 } (.processCanFrame frFF)).map
        (fun t => (t.hostOut, t.held.length)) = some ([], 1) ∧
      ((on { full with draws := hold, pend := armedRequest 0x09 0x0002 1 0 } (.processCanFrame frFF)).bind
        fun t => nextOf (resumeHeld 0 { t.setBus 0 { t.bus 0 with txq := [] } with hostOut := [0x0D] })).map
          (fun t => (t.hostOut.take 3, t.hostOut.drop 24, t.held)) =
        some ([0x0D, 0x31, 0x30], [0x0D, 0x0D, 0x3E], []) := by decide

/-- V102. -/
theorem test_format_v102 :
    (on { bus0 with sess := { bus0.sess with headers := true } } (.formatFrameOutput frSF)).map State.answers =
      some [.text [0x37, 0x45, 0x38, 0x20, 0x30, 0x38, 0x20, 0x34, 0x31, 0x20, 0x30, 0x35, 0x20, 0x33, 0x43, 0x0D]] := by decide

/-- V122. -/
theorem test_format_v122 :
    (on { bus0 with sess := { bus0.sess with headers := true } } (.formatFrameOutput frFF)).map State.answers =
      some [.text [0x30, 0x31, 0x34, 0x0D, 0x30, 0x3A, 0x20, 0x37, 0x45, 0x38, 0x20, 0x34, 0x39, 0x20, 0x30, 0x32, 0x20, 0x30, 0x31, 0x20, 0x33, 0x31, 0x20, 0x34, 0x34, 0x20, 0x33, 0x34, 0x0D]] := by decide

/-- V140. -/
theorem test_update_timeout_v140 :
    (on bus0 (.updateTimeout 250)).map (fun t => (t.estAvg, t.sess.timeoutMs)) = some (145, 580) := by decide

/-- V148. -/
theorem test_update_timeout_v148 :
    (on { bus0 with estAvg := 0xFFFFFFFF } (.updateTimeout 0xFFFFFFFF)).map (fun t => (t.estAvg, t.sess.timeoutMs)) =
      some (0xFFFFFFFF, 1000) := by decide

/-- V155, V156. -/
theorem test_check_for_timeout_v155_v156 :
    (on (asked 0 1200) .checkForTimeout).map (fun t => (t.hostOut, t.pend.valid)) = some ([], true) ∧
      (on (asked 0 1201) .checkForTimeout).map (fun t => (t.hostOut, t.pend.valid, t.estAvg, t.sess.timeoutMs)) =
        some ([0x0D, 0x3E], false, 130, 520) := by decide

/-- V159. -/
theorem test_check_for_timeout_v159 :
    (on { bus0 with pend := armedRequest 0x01 0x0005 0 (0 - 50), clock := 160 } .checkForTimeout).map
      (fun t => (t.estAvg, t.sess.timeoutMs)) = some (133, 532) := by decide

/-- R251. -/
theorem test_close_out :
    (on (asked 0 1000) .closeOut).map (fun t => (t.hostOut, t.pend)) = some ([0x0D, 0x3E], Pending.none) := by decide

/-! ## Witnesses: hypotheses of the obligations met together, each clause at the ends of its range -/

theorem witness_ApiCommandsRoundTrip :
    encode (.send 255 ⟨0x1FFFFFFF, true, true, 8, ⟨0xFF, 0, 0, 0, 0, 0, 0, 0xFF⟩⟩) =
        some (.api, [0x07, 0xFF, 0xFF, 0xFF, 0xFF, 0xDF, 0x08, 0xFF, 0, 0, 0, 0, 0, 0, 0xFF]) ∧
      encode .getNumBusses = some (.api, [0x0D]) := by decide

theorem witness_HostLinesRoundTrip :
    ((Instr.invalidLine [0x41]).wf = true ∧ encode (.invalidLine [0x41]) = some (.hostIn, [0x41, 0x0D])) ∧
      ((Instr.atsh 0x1FFFFFFF).wf = true ∧
        encode (.atsh 0x1FFFFFFF) = some (.hostIn, [0x41, 0x54, 0x53, 0x48, 0x31, 0x46, 0x46, 0x46, 0x46, 0x46, 0x46, 0x46, 0x0D])) ∧
      (Instr.repeatLine.wf = true ∧ encode .repeatLine = some (.hostIn, [0x0D])) := by decide

theorem witness_ApiBytesHaveOneCommand :
    decode .api [0x11, 0, 0xFF, 0xFF, 0xFF, 0xDF, 8, 1, 2, 3, 4, 5, 6, 7, 8, 0x99] =
      .ok (.handleBridge 0 ⟨0x1FFFFFFF, true, true, 8, ⟨1, 2, 3, 4, 5, 6, 7, 8⟩⟩, [0x99]) := by decide

theorem witness_HostLinesDecodeWellFormed :
    decode .hostIn [0x0D] = .ok (.repeatLine, []) ∧ (lineOk [0x61, 0x74, 0x7A] = true ∧ isTerminator 0x0D = true) ∧
      (lineOk [] = true ∧ isTerminator 0x0A = true) := by decide

theorem witness_ReservedApiInputsRefused :
    (0x11 < (0x12 : Byte).toNat ∧ 0x11 < (0xFF : Byte).toNat) ∧ (0x20000000 : Word32).getLsbD 29 = true ∧
      ((0xDFFFFFFF : Word32).getLsbD 29 = false ∧ 8 < (9 : Byte).toNat ∧ 8 < (255 : Byte).toNat) ∧
      ((next (.api [0x12]) Config.plainDraws bus0).nextStimulus.action = .api [0x12] ∧
        decode .api [0x12] = .error (.reservedCode 0x12)) := by decide

theorem witness_HexTextSpellsTheValue :
    (0 < 16 ^ 0) ∧ 0xFF < 16 ^ 2 ∧ 0xFFF < 16 ^ 3 := by decide

theorem witness_LongestTableRowWins :
    findRow atTable [0x41, 0x54, 0x44, 0x50, 0x4E] = some (.atdp, [0x4E]) ∧ findRow atTable [0x41, 0x54, 0x44] = some (.atd, []) ∧
      findRow atTable [0x41, 0x54, 0x58] = none ∧ findRow atTable [] = none ∧
      (AtRow.ate, LineCmd.ate) ∈ [(AtRow.atat, LineCmd.atat), (.ate, .ate)] := ⟨by decide, by decide, by decide, by decide, .tail _ (.head _)⟩

/-- The argument forms of R77 at their ends. -/
theorem test_argument_forms :
    parseArg .ate [0x31, 0x58] = some (.ate true) ∧ parseArg .ate [] = none ∧ parseArg .ate [0x32] = none ∧
      parseArg .atst [0x46] = some (.atst 0x0F) ∧ parseArg .atst [0x46, 0x46, 0x30] = none ∧ parseArg .atst [] = none ∧
      parseArg .atsp [0x39, 0x58] = some (.atsp .p9) ∧ parseArg .atsp [0x35] = none ∧
      parseArg .atsh [0x32, 0x30, 0x30, 0x30, 0x30, 0x30, 0x30, 0x30] = none ∧ parseArg .atsh [0x37] = some (.atsh 7) ∧
      parseArg .atdp [0x58] = some (.atdp false) := by decide

theorem witness_StepRunsTheScheduledOperation :
    (next (.api [0x0D]) noLock bus0).script = [{ action := .api [0x0D], draws := noLock }] ∧
      ((next (.api [0x0D]) noLock bus0).nextStimulus.action = .api [0x0D] ∧ decode .api [0x0D] = .ok (.getNumBusses, [])) ∧
      ((next (.wire 0 0x7E8 8 frSF.data) noLock bus0).nextStimulus.action = .wire 0 0x7E8 8 frSF.data ∧
        wireFrame 0x7E8 8 frSF.data (next (.wire 0 0x7E8 8 frSF.data) noLock bus0).nextStimulus.draws.pad = .ok frSF) ∧
      ((next (.host 0x41) noLock bus0).nextStimulus.action = .host 0x41 ∧
        (next (.host 0x41) noLock bus0).elmHolding = false) ∧
      ((next .poll noLock full).nextStimulus.action = .poll ∧ (next .poll noLock full).elmHolding = false) ∧
      (next .arbiter noLock bus0).nextStimulus.action = .arbiter ∧
      (next (.rxTask 255) noLock bus0).nextStimulus.action = .rxTask 255 ∧
      (next (.fsm 7 0x41) noLock bus0).nextStimulus.action = .fsm 7 0x41 ∧
      (next .reset noLock bus0).nextStimulus.action = .reset := by decide

theorem witness_TerminatorRunsTheDecodedLine :
    bus0.elmOk = true ∧ isTerminator 0x0D = true ∧ isTerminator 0x0A = true ∧ bus0.sess.echo = false := by decide

/-- T1 right after reset with an outstanding request, a frame queued and a poll scheduled. -/
def sound : State :=
  next .poll Config.plainDraws { State.reset with pend := armedRequest 0x01 0x0005 0 0, clock := 300 }

theorem sound_buses : ∀ x ∈ sound.buses, x.Inv sound.inst := by
  intro x hx
  have hx' : x ∈ List.replicate 4 (Bus.fresh (defaultCfg Config.t1)) := hx
  rw [(List.mem_replicate.1 hx').2]
  exact ⟨by decide, by decide, by decide, by decide, by decide⟩

theorem sound_engines (k : Nat) (p : FsmParams) (e : FsmEngine) (hp : sound.inst.engines[k]? = some p)
    (he : sound.engines[k]? = some e) : FsmRegistry.has p.registry e.current = true := by
  match k with
  | 0 => cases hp; cases he; rfl
  | _ + 1 => cases hp

/-- A sound state in which the poll closes the exchange. -/
theorem witness_StepKeepsInv : sound.Inv ∧ ∃ t, step sound = .next t :=
  ⟨⟨rfl, rfl, by decide, rfl, by decide, by decide, by decide, by decide, rfl, sound_engines, sound_buses⟩, _, rfl⟩

theorem witness_ParametersNeverChange :
    (∃ t, exec (.enable 0 500000) State.reset = .next t) ∧ ∃ t, step sound = .next t := ⟨⟨_, rfl⟩, _, rfl⟩

theorem witness_QueuesAreFifo :
    (∃ t, step (next (.wire 0 0x100 1 full.frA.data) noLock bus0) = .next t) ∧
      (next (.wire 0 0x100 1 full.frA.data) noLock bus0).nextStimulus.action ≠ .reset := ⟨⟨_, rfl⟩, by decide⟩

theorem witness_RegistrationIsNeverUndone :
    (∃ t, step (next (.api [0x01, 0x00]) noLock bus0) = .next t) ∧
      (next (.api [0x01, 0x00]) noLock bus0).nextStimulus.action ≠ .reset ∧
      ((next (.api [0x01, 0x00]) noLock bus0).bus 0).irqRegistered = true := ⟨⟨_, rfl⟩, by decide⟩

theorem witness_OverflowCountsDroppedFrames :
    (∃ t, step (next (.wire 0 0x100 1 full.frA.data) noLock rxFull) = .next t ∧ (t.bus 0).rxOverflow = 1) ∧
      (next (.wire 0 0x100 1 full.frA.data) noLock rxFull).nextStimulus.action ≠ .reset := ⟨⟨_, rfl, rfl⟩, by decide⟩

theorem witness_PersistedRecordIsWholeOrKept :
    ∃ t, step (next (.api [0x00, 0x02, 0x90, 0xD0, 0x03, 0x00]) Config.plainDraws bus0) = .next t ∧ t.nvm.valid = true := ⟨_, rfl, rfl⟩

theorem witness_ExchangeTransitions :
    ((∃ t, exec .atz bus0 = .next t) ∧ startsExchange .atz = false ∧ servesExchange .atz = false) ∧
      ((∃ t, exec (.pid4 1 5) bus0 = .next t) ∧ startsExchange (.pid4 1 5) = true) ∧
      ∃ t, exec (.processCanFrame frSF) (asked 2 1040) = .next t ∧ servesExchange (.processCanFrame frSF) = true ∧
        t.awaiting = true := ⟨⟨⟨_, rfl⟩, rfl, rfl⟩, ⟨⟨_, rfl⟩, rfl⟩, _, rfl, rfl, rfl⟩

/-- An outstanding request in monitor mode, a poll scheduled. -/
def frozen : State :=
  next .poll Config.plainDraws { asked 0 5000 with sess := { Config.t1Session with monitor := true } }

theorem witness_MonitorModeFreezesTheExchange :
    (∃ t, step frozen = .next t) ∧ frozen.nextStimulus.action ≠ .reset ∧ frozen.sess.monitor = true ∧
      frozen.elmHolding = false ∧ frozen.awaiting = true := ⟨⟨_, rfl⟩, by decide⟩

theorem witness_DisabledSubsystemRefuses :
    (ownedBy (.enable 0 0) = some .transport ∧ { bus0 with transportOk := false }.transportOk = false) ∧
      (ownedBy .atz = some .elm ∧ { bus0 with elmOk := false }.elmOk = false) := by decide

theorem witness_EnableStartsTheController :
    State.reset.transportOk = true ∧ State.reset.numBusses.toNat ≤ State.reset.buses.length ∧
      (1000000 : Word32).toNat = min (2000000 : Word32).toNat State.reset.inst.maxBitrate.toNat ∧
      (1000000 : Word32).toNat = min (1000000 : Word32).toNat State.reset.inst.maxBitrate.toNat ∧
      ((0 : BusIx).toNat < State.reset.numBusses.toNat ∧ (2 : BusIx).toNat < State.reset.numBusses.toNat ∧
        State.reset.numBusses.toNat ≤ (3 : BusIx).toNat ∧ State.reset.numBusses.toNat ≤ (255 : BusIx).toNat) := by decide

theorem witness_DisableStopsTheController :
    State.reset.transportOk = true ∧ State.reset.numBusses.toNat ≤ State.reset.buses.length ∧
      ((0 : BusIx).toNat < State.reset.numBusses.toNat ∧ (2 : BusIx).toNat < State.reset.numBusses.toNat ∧
        State.reset.numBusses.toNat ≤ (3 : BusIx).toNat ∧ State.reset.numBusses.toNat ≤ (255 : BusIx).toNat) ∧ (bus0.bus 0).cfg.enabled = true ∧ (State.reset.bus 0).cfg.enabled = false := by decide

theorem witness_SetBitrateRestartsAnEnabledBus :
    State.reset.transportOk = true ∧ State.reset.numBusses.toNat ≤ State.reset.buses.length ∧
      (1000000 : Word32).toNat = min (2000000 : Word32).toNat State.reset.inst.maxBitrate.toNat ∧
      (1000000 : Word32).toNat = min (1000000 : Word32).toNat State.reset.inst.maxBitrate.toNat ∧
      ((0 : BusIx).toNat < State.reset.numBusses.toNat ∧ (2 : BusIx).toNat < State.reset.numBusses.toNat ∧
        State.reset.numBusses.toNat ≤ (3 : BusIx).toNat ∧ State.reset.numBusses.toNat ≤ (255 : BusIx).toNat) := by decide

theorem witness_SetListenOnlyIsIdempotent :
    State.reset.transportOk = true ∧ State.reset.numBusses.toNat ≤ State.reset.buses.length ∧
      ((0 : BusIx).toNat < State.reset.numBusses.toNat ∧ (2 : BusIx).toNat < State.reset.numBusses.toNat ∧
        State.reset.numBusses.toNat ≤ (3 : BusIx).toNat ∧ State.reset.numBusses.toNat ≤ (255 : BusIx).toNat) := by decide

theorem witness_GettersReadTheBus :
    State.reset.transportOk = true ∧
      ((0 : BusIx).toNat < State.reset.numBusses.toNat ∧ (2 : BusIx).toNat < State.reset.numBusses.toNat ∧
        State.reset.numBusses.toNat ≤ (3 : BusIx).toNat ∧ State.reset.numBusses.toNat ≤ (255 : BusIx).toNat) := by decide

theorem witness_BusCountIsReadAndSet :
    State.reset.transportOk = true ∧
      ((3 : Byte).toNat < State.reset.inst.maxBusses ∧
        ∀ k : Fin 4, 3 ≤ k.val → (State.reset.buses[k.val]?).map Bus.ctrlRunning = some false) ∧
      State.reset.inst.maxBusses ≤ (4 : Byte).toNat ∧
      ((0 : Byte).toNat ≤ 0 ∧ (bus0.buses[0]?).map Bus.ctrlRunning = some true) := by decide

theorem witness_PersistRewritesTheRecord :
    (bus0.transportOk = true ∧ noLock.lockOk = false) ∧ (noPersist.lockOk = true ∧ noPersist.persistOk = false) ∧
      (bus0.draws.lockOk = true ∧ bus0.draws.persistOk = true) := by decide

/-- T1 with a readable record whose count is `n`. -/
def recorded (n : Byte) : State := { bus0 with nvm := { valid := true, busCount := n, busConfig := bus0.cfgs } }

theorem witness_LoadSettingsTakesTheRecord :
    (bus0.transportOk = true ∧ bus0.nvm.busConfig.length = bus0.buses.length) ∧
      ((recorded 3).nvm.valid = true ∧ (recorded 3).nvm.busCount.toNat < (recorded 3).inst.maxBusses ∧
        (recorded 3).nvm.busConfig.length = (recorded 3).buses.length) ∧
      (bus0.nvm.valid = false ∧ (recorded 4).inst.maxBusses ≤ (recorded 4).nvm.busCount.toNat ∧
        (recorded 4).nvm.busConfig.length = (recorded 4).buses.length) := by decide

theorem witness_PersistThenLoadRestores :
    (bus0.draws.lockOk = true ∧ bus0.draws.persistOk = true ∧ bus0.numBusses.toNat < bus0.inst.maxBusses) ∧
      ∃ t, exec .persist bus0 = .next t ∧ { State.reset with nvm := t.nvm }.nvm = t.nvm ∧
        { State.reset with nvm := t.nvm }.inst = bus0.inst ∧ State.reset.buses.length = bus0.buses.length ∧
        State.reset.transportOk = true := ⟨by decide, _, rfl, rfl, rfl, rfl, rfl⟩

theorem witness_RxEventQueuesOrCounts :
    bus0.transportOk = true ∧
      ((received.bus 0).irqRegistered = true ∧ (received.bus 0).ctrlRunning = true ∧
        (received.bus 0).rxq.length < received.inst.rxqDepth) ∧
      ((rxFull.bus 0).irqRegistered = true ∧ (rxFull.bus 0).ctrlRunning = true ∧
        rxFull.inst.rxqDepth ≤ (rxFull.bus 0).rxq.length) ∧
      (State.reset.bus 0).irqRegistered = false ∧ (State.reset.bus 255).ctrlRunning = false := by decide

theorem witness_SendChecksThenQueues :
    bus0.transportOk = true ∧ bus0.numBusses.toNat ≤ (3 : BusIx).toNat ∧
      ((2 : BusIx).toNat < bus0.numBusses.toNat ∧ (bus0.bus 2).cfg.enabled = false) ∧
      ((0 : BusIx).toNat < bus0.numBusses.toNat ∧ (silent.bus 0).cfg.enabled = true ∧ (silent.bus 0).cfg.listenOnly = true) ∧
      (half.accepts 0) ∧
      ((0 : BusIx).toNat < full.numBusses.toNat ∧ (full.bus 0).cfg.enabled = true ∧
        (full.bus 0).cfg.listenOnly = false ∧ full.inst.txqDepth ≤ (full.bus 0).txq.length) := ⟨by decide, by decide, by decide, by decide, ⟨by decide, by decide, by decide, by decide⟩, by decide⟩

theorem witness_ReceiveTakesTheHead :
    bus0.transportOk = true ∧ bus0.numBusses.toNat ≤ (3 : BusIx).toNat ∧
      ((0 : BusIx).toNat < received.numBusses.toNat ∧ (received.bus 0).rxq = full.frA :: []) ∧
      ((2 : BusIx).toNat < bus0.numBusses.toNat ∧ (bus0.bus 2).rxq = []) := by decide

/-- `s` with the operation `h` held, looking again next with draws `d`. -/
def waiting (h : Held) (d : Draws) (s : State) : State := next (.resume 0) d { s with held := [h] }

/-- The start of the bridge vectors with `RXTASK[1]` at phase `p`, and with `RXQ[1]` and `TXQ[2]` as given. -/
def tasked (p : RxPhase) : State := bridged.setBus 1 { bridged.bus 1 with rxTask := p }
def taskedWith (p : RxPhase) (rxq txq : List CanFrame) (d : Draws) : State :=
  { (tasked p).setBus 1 { (tasked p).bus 1 with rxq := rxq } with draws := d }.setBus 2 { bridged.bus 2 with txq := txq }

/-- Each kind of held `SEND`, with room, giving up, and going on. -/
theorem witness_HeldSendCompletesOnRoom :
    ∀ k ∈ [SendCont.client, .bridge, .pid 1 5 0, .flow, .frame .direct frFF [0x0D]],
      ((waiting (.send 0 frX k) hold half).nextStimulus.action = .resume 0 ∧
          (waiting (.send 0 frX k) hold half).transportOk = true ∧
          (waiting (.send 0 frX k) hold half).held[0]? = some (.send 0 frX k) ∧
          ((waiting (.send 0 frX k) hold half).beginStep.bus 0).txq.length <
            (waiting (.send 0 frX k) hold half).beginStep.inst.txqDepth) ∧
        ((waiting (.send 0 frX k) noLock full).beginStep.inst.txqDepth ≤
            ((waiting (.send 0 frX k) noLock full).beginStep.bus 0).txq.length ∧
          (waiting (.send 0 frX k) noLock full).beginStep.draws.giveUp = true) ∧
        ((waiting (.send 0 frX k) hold full).beginStep.inst.txqDepth ≤
            ((waiting (.send 0 frX k) hold full).beginStep.bus 0).txq.length ∧
          (waiting (.send 0 frX k) hold full).beginStep.draws.giveUp = false) := by decide

/-- A held `RECEIVE` with and without a frame, and an operation that is not held. -/
theorem witness_HeldSendCompletesOnRoom_receive :
    ((waiting (.receive 0) hold received).nextStimulus.action = .resume 0 ∧
        (waiting (.receive 0) hold received).transportOk = true ∧
        (waiting (.receive 0) hold received).held[0]? = some (.receive 0) ∧
        ((waiting (.receive 0) hold received).bus 0).rxq = full.frA :: []) ∧
      (((waiting (.receive 0) hold bus0).bus 0).rxq = []) ∧
      ((next (.resume 3) hold bus0).nextStimulus.action = .resume 3 ∧ (next (.resume 3) hold bus0).held[3]? = none) := by decide

/-- The holding phases of the receive task, with what they wait for, without it and giving up, and without it. -/
theorem witness_HeldSendCompletesOnRoom_task :
    ((tasked .receiving).transportOk = true ∧ (1 : BusIx).toNat < (tasked .receiving).buses.length ∧
        ((taskedWith .receiving [frX] [] hold).bus 1).rxTask = .receiving ∧
        ((taskedWith .receiving [frX] [] hold).bus 1).rxq = frX :: [] ∧
        ((taskedWith .receiving [] [] hold).bus 1).rxTask = .receiving ∧ ((taskedWith .receiving [] [] hold).bus 1).rxq = []) ∧
      (((taskedWith (.forwarding 2 frX) [] [] hold).bus 1).rxTask = .forwarding 2 frX ∧
        ((taskedWith (.forwarding 2 frX) [] [] hold).bus 2).txq.length < (taskedWith (.forwarding 2 frX) [] [] hold).inst.txqDepth ∧
        (taskedWith (.forwarding 2 frX) [] [frX, frX] noLock).inst.txqDepth ≤
          ((taskedWith (.forwarding 2 frX) [] [frX, frX] noLock).bus 2).txq.length ∧ noLock.giveUp = true ∧ hold.giveUp = false) ∧
      (((taskedWith (.answering 2 frX frFF [0x0D]) [] [] hold).bus 1).rxTask = .answering 2 frX frFF [0x0D] ∧
        ((taskedWith (.answering 2 frX frFF [0x0D]) [] [] hold).bus 2).txq.length <
          (taskedWith (.answering 2 frX frFF [0x0D]) [] [] hold).inst.txqDepth ∧
        (taskedWith (.answering 2 frX frFF [0x0D]) [] [frX, frX] noLock).inst.txqDepth ≤
          ((taskedWith (.answering 2 frX frFF [0x0D]) [] [frX, frX] noLock).bus 2).txq.length) := by decide

/-- T1 with one frame queued on bus 0 and two on bus 2, the arbiter at bus 1 (V31). -/
def queued (choice : Option BusIx) : State :=
  { (half.setBus 2 { half.bus 2 with txq := [full.frB, frX] }) with
    arbPtr := 1, draws := { Config.plainDraws with txChoice := choice } }

theorem witness_TxStepServesInOrder :
    (bus0.transportOk = true ∧ bus0.numBusses.toNat ≤ bus0.buses.length ∧
        ∀ b : BusIx, b.toNat < bus0.numBusses.toNat → (bus0.bus b).txq = []) ∧
      (((2 : BusIx).toNat < (queued none).numBusses.toNat ∧ ((queued none).bus 2).txq = full.frB :: [frX]) ∧
        (queued none).draws.txChoice = none ∧
        ∀ c : BusIx, c.toNat < (queued none).numBusses.toNat → ((queued none).bus c).txq ≠ [] →
          (queued none).visitPosition 2 ≤ (queued none).visitPosition c) ∧
      ((0 : BusIx).toNat < (queued (some 0)).numBusses.toNat ∧ ((queued (some 0)).bus 0).txq = full.frA :: [] ∧
        (queued (some 0)).draws.txChoice = some 0) := by decide

theorem witness_TxStepMovesOneHead :
    (queued (some 1)).transportOk = true ∧ (queued (some 1)).numBusses.toNat ≤ (queued (some 1)).buses.length ∧
      (2 : BusIx).toNat < (queued (some 1)).numBusses.toNat ∧ ((queued (some 1)).bus 2).txq ≠ [] := by decide

theorem witness_SetBridgeStoresThePair :
    State.reset.transportOk = true := by decide

theorem witness_HandleBridgeForwards :
    bridged.transportOk = true ∧ noLock.lockOk = false ∧
      (bus0.draws.lockOk = true ∧ bus0.bridge.a = bus0.bridge.b) ∧
      (bridged.draws.lockOk = true ∧ (0 : BusIx) ≠ bridged.bridge.a ∧ (0 : BusIx) ≠ bridged.bridge.b) ∧
      ((1 : BusIx) ≠ 2 ∧ bridged.bridge = { a := 1, b := 2 } ∧ bridged.accepts 2) ∧
      ((2 : BusIx) ≠ 1 ∧ bridged.bridge = { a := 1, b := 2 } ∧ bridged.accepts 1) ∧
      ∃ u, exec (.send 2 frX) bridged = .next u ∧ u.answers = bridged.answers ++ [.code 0] := ⟨by decide, by decide, by decide, by decide,
      ⟨by decide, by decide, by decide, by decide, by decide, by decide⟩,
      ⟨by decide, by decide, by decide, by decide, by decide, by decide⟩, _, rfl, rfl⟩

theorem witness_ReceiveTaskFansOut :
    (received.transportOk = true ∧ received.numBusses.toNat ≤ received.buses.length ∧
        (0 : BusIx).toNat < received.buses.length ∧ (received.bus 0).rxTask = .idle ∧
        (0 : BusIx).toNat < received.numBusses.toNat ∧ (received.bus 0).rxq = full.frA :: []) ∧
      (((tasked (.bridging frX)).bus 1).rxTask = .bridging frX ∧ (tasked (.bridging frX)).draws.lockOk = true ∧
        ({ tasked (.bridging frX) with bridge := { a := 0, b := 0 } }.bridge.a =
          { tasked (.bridging frX) with bridge := { a := 0, b := 0 } }.bridge.b)) ∧
      ((1 : BusIx) ≠ 2 ∧ (tasked (.bridging frX)).bridge = { a := 1, b := 2 } ∧ (tasked (.bridging frX)).accepts 2) ∧
      (((tasked (.emulating frSF)).bus 1).rxTask = .emulating frSF ∧
        ∃ u, exec (.handleCanFrame frSF) (tasked (.emulating frSF)) = .next u ∧ u.held = (tasked (.emulating frSF)).held) ∧
      (((tasked (.emulating frX)).bus 1).rxTask = .emulating frX ∧ (tasked (.emulating frX)).elmOk = true ∧
        (tasked (.emulating frX)).sess.monitor = false ∧
        inRespRange frX.id (tasked (.emulating frX)).sess.extended = false) := ⟨by decide, by decide, ⟨by decide, by decide, by decide, by decide, by decide, by decide⟩, ⟨by decide, _, rfl, rfl⟩,
      by decide⟩

/-- The bus 1 of `bridged` at phase `p`, with `ELM_BUS` full and a hold drawn. -/
def crowded (p : RxPhase) : State :=
  { full with draws := hold }.setBus 1 { full.bus 1 with rxTask := p }

/-- The transitions with an empty queue, an invalid bus, no lock, a forward that fails or holds, and a flow control
that holds. -/
theorem witness_ReceiveTaskFansOut_rest :
    ((bus0.bus 0).rxTask = .idle ∧ (0 : BusIx).toNat < bus0.numBusses.toNat ∧ (bus0.bus 0).rxq = []) ∧
      ((bus0.bus 3).rxTask = .idle ∧ bus0.numBusses.toNat ≤ (3 : BusIx).toNat ∧ (3 : BusIx).toNat < bus0.buses.length) ∧
      (((taskedWith (.bridging frX) [] [] noLock).bus 1).rxTask = .bridging frX ∧
        (taskedWith (.bridging frX) [] [] noLock).draws.lockOk = false) ∧
      (∃ r u, (tasked (.bridging frX)).sendResults 2 frX r u ∧ r = 0) ∧
      (∃ r u, { tasked (.bridging frX) with bridge := { a := 1, b := 3 } }.sendResults 3 frX r u ∧ r = -1) ∧
      ((taskedWith (.bridging frX) [] [frX, frX] hold).sendPasses 2 ∧
        (taskedWith (.bridging frX) [] [frX, frX] hold).sendWaits 2) ∧
      (((crowded (.emulating frFF)).bus 1).rxTask = .emulating frFF ∧ (crowded (.emulating frFF)).elmOk = true ∧
        (crowded (.emulating frFF)).sess.monitor = false ∧
        inRespRange frFF.id (crowded (.emulating frFF)).sess.extended = true ∧
        (crowded (.emulating frFF)).draws.lockOk = true ∧ frFF.data.b0 &&& 0xF0 = 0x10) ∧
      ((crowded (.emulating frFF)).sendPasses 0 ∧ (crowded (.emulating frFF)).sendWaits 0) :=
  ⟨by decide, by decide, by decide,
    ⟨0, _, .inr (.inr (.inr ⟨⟨by decide, by decide, by decide⟩, .inl ⟨by decide, rfl, rfl⟩⟩)), rfl⟩,
    ⟨-1, _, .inl ⟨by decide, rfl, rfl⟩, rfl⟩,
    ⟨⟨by decide, by decide, by decide⟩, by decide, by decide⟩, by decide, ⟨by decide, by decide, by decide⟩, by decide, by decide⟩

theorem witness_FsmStepFollowsTheHandlers :
    ((withRegistries [settling]).inst.engines[0]? = some ⟨settling, 0, 0⟩ ∧
        (withRegistries [settling]).engines[0]? = some ⟨0, 0, false⟩ ∧ fsmLookup settling 0 = some Config.fsmIdle) ∧
      (({ withRegistries [settling] with engines := [⟨0, 0, true⟩] } : State).engines[0]?).map FsmEngine.faulted = some true ∧
      fsmTick Config.fsmIdle 0 0x42 = (0, 0, 0) ∧
      (fsmTick Config.fsmIdle 0 0x41 = (1, 1, 0) ∧ fsmLookup settling 1 = some { Config.fsmDispatch with enterNext := 1 } ∧
        fsmEnter { Config.fsmDispatch with enterNext := 1 } (fsmExit Config.fsmIdle 0) = (1, 0)) ∧
      ((withRegistries [ghost]).engines[0]? = some ⟨0, 0, false⟩ ∧ fsmLookup ghost 9 = none ∧
        (fsmLookup ghost 0).map (fun h => fsmTick h 0 0x43) = some (9, 3, 0)) := by decide

/-- Entering `1` redirects to an identity that is not registered. -/
def astray : FsmRegistry := [(0, Config.fsmIdle), (1, { Config.fsmDispatch with enterNext := 9 })]

/-- The chain of V55 returns to `idle` after two transitions; a chain can meet an unregistered identity after one. -/
theorem witness_FsmStepFollowsTheHandlers_chain :
    (2 ≤ cascadeFuel [(0, Config.fsmIdle), (1, Config.fsmDispatch)] ∧
        FsmChain [(0, Config.fsmIdle), (1, Config.fsmDispatch)] 2 0 1 0 (.stable 0 0)) ∧
      (1 ≤ cascadeFuel astray ∧ FsmChain astray 1 0 1 0 (.unknown 1 9)) :=
  ⟨⟨by decide,
      .move 1 0 1 0 0 0 Config.fsmIdle Config.fsmDispatch _ (by decide) rfl rfl rfl
        (.move 0 1 0 0 0 0 Config.fsmDispatch Config.fsmIdle _ (by decide) rfl rfl rfl (.stay 0 0))⟩,
    by decide, .move 0 0 1 0 9 0 Config.fsmIdle { Config.fsmDispatch with enterNext := 9 } _ (by decide) rfl rfl rfl
      (.unknown 1 9 0 (by decide) rfl)⟩

theorem witness_FsmIsIsolated :
    (∃ t, exec (.fsmStep ⟨0, 0x41⟩) (withRegistries [settling, ghost]) = .next t) ∧
      ((withRegistries [ghost, settling]).inst.engines[1]? = (withRegistries [settling, ghost]).inst.engines[0]? ∧
        (withRegistries [ghost, settling]).engines[1]? = (withRegistries [settling, ghost]).engines[0]? ∧
        (withRegistries [ghost, settling]).draws.fsmUser = (withRegistries [settling, ghost]).draws.fsmUser) ∧
      State.reset.inst.engines[1]? = none ∧ ({ State.reset with engines := [] } : State).engines[0]? = none :=
  ⟨⟨_, rfl⟩, by decide, rfl, rfl⟩

theorem witness_FuelExhaustionIsAHang :
    cascade endless (cascadeFuel endless) 0 1 0 = .hang := by decide

theorem witness_AtCommands :
    State.reset.elmOk = true ∧ (1020 : Word32).toNat = (0xFF : Byte).toNat * 4 ∧ (0 : Word32).toNat = (0 : Byte).toNat * 4 := by decide

/-- The header at the largest standard identifier, and one above it with extended addressing. -/
def headed (id : BitVec 29) (x : Bool) : State := { half with sess := { half.sess with headerId := id, extended := x } }

theorem witness_PidRequestSendsAndArms :
    ((headed 0x7FF false).requestReady ∧ (headed 0x7FF false).accepts (headed 0x7FF false).inst.elmBus) ∧
      ((headed 0x1FFFFFFF true).requestReady ∧ (headed 0x1FFFFFFF true).accepts (headed 0x1FFFFFFF true).inst.elmBus) := ⟨⟨⟨rfl, rfl, rfl, .inr (by decide)⟩, by decide, by decide, by decide, by decide⟩,
      ⟨rfl, rfl, rfl, .inl rfl⟩, by decide, by decide, by decide, by decide⟩

/-- Each error of `SEND`, and the hold, when a request can start. -/
theorem witness_PidRequestArmsWithoutTheFrame (f : CanFrame) :
    (State.requestReady { bus0 with numBusses := 0 } ∧ ∃ u, State.sendResults { bus0 with numBusses := 0 } 0 f (-1) u) ∧
      (State.reset.requestReady ∧ ∃ u, State.reset.sendResults 0 f (-2) u) ∧
      (silent.requestReady ∧ ∃ u, silent.sendResults 0 f (-3) u) ∧
      (full.requestReady ∧ ∃ u, full.sendResults 0 f (-4) u) ∧
      (State.requestReady { full with draws := hold } ∧ State.sendPasses { full with draws := hold } 0 ∧
        State.sendWaits { full with draws := hold } 0) :=
  ⟨⟨⟨rfl, rfl, rfl, .inr (by decide)⟩, _, .inl ⟨by decide, rfl, rfl⟩⟩,
    ⟨⟨rfl, rfl, rfl, .inr (by decide)⟩, _, .inr (.inl ⟨by decide, by decide, rfl, rfl⟩)⟩,
    ⟨⟨rfl, rfl, rfl, .inr (by decide)⟩, _, .inr (.inr (.inl ⟨by decide, by decide, by decide, rfl, rfl⟩))⟩,
    ⟨⟨rfl, rfl, rfl, .inr (by decide)⟩, _,
      .inr (.inr (.inr ⟨⟨by decide, by decide, by decide⟩, .inr ⟨by decide, rfl, rfl, rfl⟩⟩))⟩,
    ⟨rfl, rfl, rfl, .inr (by decide)⟩, ⟨by decide, by decide, by decide⟩, by decide, rfl⟩

theorem witness_PidRequestRefused :
    (asked 0 1000).elmOk = true ∧ (asked 0 1000).pend.valid = true ∧
      ((headed 0x800 false).pend.valid = false ∧ (headed 0x800 false).sess.extended = false ∧
        0x7FF < (headed 0x800 false).sess.headerId.toNat) := by decide

theorem witness_LinesAreDispatched :
    bus0.elmOk = true ∧ [0x30, 0x31, 0x30, 0x35] ≠ [] ∧ bus0.lastCmd = [] ∧ { bus0 with lastCmd := [0x30, 0x31, 0x30, 0x35] }.lastCmd ≠ [] ∧
      (∃ v ∈ [0x41, 0x54, 0x5A], isHex v = false) ∧ { bus0 with lastCmd := [0x41, 0x54, 0x5A] }.lastCmd = [0x41, 0x54, 0x5A] := by decide

theorem witness_HostByteCollectsTheLine :
    bus0.elmOk = true ∧
      (isTerminator 0x0C = false ∧ { bus0 with lineBuf := List.replicate 31 0x41 }.lineBuf.length < bus0.inst.lineMax) ∧
      (isTerminator 0xFF = false ∧ bus0.inst.lineMax ≤ { bus0 with lineBuf := List.replicate 32 0x41 }.lineBuf.length) ∧
      (isTerminator 0x0D = true ∧ isTerminator 0x0A = true ∧ bus0.lineBuf = [] ∧ bus0.lastCmd = []) := by decide

theorem witness_FormatSingleFrame :
    bus0.elmOk = true ∧ (std 0xFFF 8 ⟨0x0F, 1, 2, 3, 4, 5, 6, 7⟩).data.b0.toNat < 0x10 ∧
      (std 0xFFF 8 ⟨0x0F, 1, 2, 3, 4, 5, 6, 7⟩).id.toNat < 0x1000 ∧
      ¬ (std 0x1000 8 ⟨0x0F, 1, 2, 3, 4, 5, 6, 7⟩).id.toNat < 0x1000 := by decide

theorem witness_FormatMultiFrame :
    bus0.elmOk = true ∧ 0x10 ≤ frFF.data.b0.toNat ∧ frFF.id.toNat < 0x1000 ∧
      (0x10 ≤ (ext 0x18DAF110 8 frFF.data).data.b0.toNat ∧ (ext 0x18DAF110 8 frFF.data).ext = true) := by decide

theorem witness_ResponseFilter :
    bus0.elmOk = true ∧ (bus0.sess.monitor = false ∧ (0x7E7 : BitVec 29).toNat < 0x7E8 ∧ 0x7EF < (0x7F0 : BitVec 29).toNat) ∧
      (0x7E8 ≤ (0x7E8 : BitVec 29).toNat ∧ (0x7EF : BitVec 29).toNat ≤ 0x7EF) ∧
      noLock.lockOk = false ∧ bus0.draws.lockOk = true ∧ frozen.sess.monitor = true ∧ frSF.data.b0 &&& 0xF0 ≠ 0x10 := by decide

/-- A first frame whose flow control is queued, fails (V54) and holds, with and without a request; a single frame. -/
theorem witness_ProcessFrameBooksTheResponse (f : CanFrame) :
    (frozen.elmOk = true ∧ frozen.sess.monitor = true) ∧
      (frFF.data.b0 &&& 0xF0 = 0x10 ∧ half.sess.monitor = false ∧ half.transportOk = true ∧
        ∃ u, half.sendResults half.inst.elmBus f 0 u) ∧
      (silent.sess.monitor = false ∧ silent.transportOk = true ∧ ∃ u, silent.sendResults silent.inst.elmBus f (-3) u) ∧
      (State.sendPasses { full with draws := hold } 0 ∧ State.sendWaits { full with draws := hold } 0) ∧
      frSF.data.b0 &&& 0xF0 ≠ 0x10 ∧ bus0.pend.valid = false ∧ (asked 1 1040).pend.valid = true :=
  ⟨by decide,
    ⟨by decide, rfl, rfl, _, .inr (.inr (.inr ⟨⟨by decide, by decide, by decide⟩, .inl ⟨by decide, rfl, rfl⟩⟩))⟩,
    ⟨rfl, rfl, _, .inr (.inr (.inl ⟨by decide, by decide, by decide, rfl, rfl⟩))⟩,
    ⟨⟨by decide, by decide, by decide⟩, by decide, rfl⟩, by decide, rfl, rfl⟩

theorem witness_FlowControlAnswersTheResponder (f : CanFrame) :
    (half.elmOk = true ∧ half.transportOk = true ∧ half.accepts half.inst.elmBus) ∧
      (silent.elmOk = true ∧ silent.transportOk = true ∧ ∃ u, silent.sendResults silent.inst.elmBus f (-3) u) ∧
      (State.sendPasses { full with draws := hold } 0 ∧ State.sendWaits { full with draws := hold } 0) ∧
      (0x7E8 ≤ (0x7E8 : BitVec 29).toNat ∧ (0x7EF : BitVec 29).toNat ≤ 0x7EF) ∧
      (0x18DAF100 ≤ (0x18DAF100 : BitVec 29).toNat ∧ (0x18DAF1FF : BitVec 29).toNat ≤ 0x18DAF1FF) :=
  ⟨⟨rfl, rfl, by decide, by decide, by decide, by decide⟩,
    ⟨rfl, rfl, _, .inr (.inr (.inl ⟨by decide, by decide, by decide, rfl, rfl⟩))⟩,
    ⟨⟨by decide, by decide, by decide⟩, by decide, rfl⟩, by decide, by decide⟩

theorem witness_UpdateTimeoutAverages :
    bus0.elmOk = true ∧ bus0.inst.minTimeoutMs.toNat ≤ bus0.inst.maxTimeoutMs.toNat ∧
      145 = (bus0.estAvg.toNat * 7 + (250 : Word32).toNat * 3) / 10 := by decide

theorem witness_TimeoutPollClosesTheExchange :
    bus0.elmOk = true ∧ frozen.sess.monitor = true ∧ bus0.pend.valid = false ∧
      ((asked 0 1200).sess.monitor = false ∧ (asked 0 1200).pend.valid = true ∧ (asked 0 1200).draws.lockOk = true ∧
        (asked 0 1200).pend.received = 0 ∧
        ((asked 0 1200).clock - (asked 0 1200).pend.tStart).toNat ≤ (asked 0 1200).sess.timeoutMs.toNat ∧
        (asked 0 1201).sess.timeoutMs.toNat < ((asked 0 1201).clock - (asked 0 1201).pend.tStart).toNat) ∧
      noLock.lockOk = false ∧ { asked 0 1290 with pend := (asked 0 1290).pend.stamp 1040 }.pend.received ≠ 0 := by decide

theorem witness_ResetLeavesTheTable :
    State.reset.nvm.busConfig.length = State.reset.inst.maxBusses ∧ State.reset.nvm.valid = false ∧
      ((recorded 3).nvm.busConfig.length = (recorded 3).inst.maxBusses ∧ (recorded 3).nvm.valid = true ∧
        (recorded 3).nvm.busCount.toNat < (recorded 3).inst.maxBusses) ∧
      (recorded 4).inst.maxBusses ≤ (recorded 4).nvm.busCount.toNat ∧ (3 : BusIx).toNat < State.reset.inst.maxBusses := by decide

end Sys2Proof.Tests
end

section
/-! PROOFS of the family 00_scope: hexadecimal text (R8), the scheduled operation (R7), and what no operation
writes (R6, R32). -/

namespace Sys2Proof

/-! ### Hexadecimal text (R8) -/

theorem hexN_succ (n v : Nat) : hexN (n + 1) v = hexN n (v / 16) ++ [hexDigit (v % 16)] := rfl

@[simp] theorem length_hexN (n v : Nat) : (hexN n v).length = n := by
  induction n generalizing v with
  | zero => rfl
  | succ n ih => simp [hexN_succ, ih]

/-- Everything a single printed digit has to satisfy, over the sixteen digits there are. -/
theorem hexDigit_spells : ∀ d : Fin 16,
    hexDigitVal (hexDigit d) = d ∧ isHex (hexDigit d) = true ∧ upperByte (hexDigit d) = hexDigit d := by decide

/-- The last digit has weight one, the digits before it weight sixteen. -/
theorem hexval_append_digit (s : Bytes) (c : Byte) : hexval (s ++ [c]) = 16 * hexval s + hexDigitVal c := by
  simp [hexval, List.foldl_append]

theorem hexval_hexN {n v : Nat} (h : v < 16 ^ n) : hexval (hexN n v) = v := by
  induction n generalizing v with
  | zero =>
    obtain rfl : v = 0 := by simpa using h
    rfl
  | succ n ih =>
    have hdiv : v / 16 < 16 ^ n := Nat.div_lt_of_lt_mul (by rwa [Nat.pow_succ'] at h)
    have hdigit := (hexDigit_spells ⟨v % 16, Nat.mod_lt _ (by decide)⟩).1
    rw [hexN_succ, hexval_append_digit, ih hdiv, hdigit]
    exact Nat.div_add_mod v 16

theorem hexN_all_isHex (n v : Nat) : (hexN n v).all isHex = true := by
  induction n generalizing v with
  | zero => rfl
  | succ n ih =>
    have hdigit := (hexDigit_spells ⟨v % 16, Nat.mod_lt _ (by decide)⟩).2.1
    simp [hexN_succ, List.all_append, ih, hdigit]

theorem upper_hexN (n v : Nat) : upper (hexN n v) = hexN n v := by
  induction n generalizing v with
  | zero => rfl
  | succ n ih =>
    have hinit : (hexN n (v / 16)).map upperByte = hexN n (v / 16) := ih _
    have hdigit := (hexDigit_spells ⟨v % 16, Nat.mod_lt _ (by decide)⟩).2.2
    simp [hexN_succ, upper, hinit, hdigit]

/-- Settles O8: only the value needs `v < 16 ^ n`; length, digits and case hold of every number. -/
theorem hexTextSpellsTheValue : Obligations.HexTextSpellsTheValue := by
  unfold Obligations.HexTextSpellsTheValue
  intro n v h
  exact ⟨length_hexN n v, hexval_hexN h, hexN_all_isHex n v, upper_hexN n v⟩

end Sys2Proof

namespace Sys2Proof.Machine

variable {s t : State}

/-! ### What a step runs (R7) -/

theorem nextStimulus_of_script {st : Stimulus} {rest : List Stimulus} (h : s.script = st :: rest) :
    s.nextStimulus = st := by
  simp [State.nextStimulus, h]

theorem step_of_fetch_run {i : Instr} (h : fetch s.nextStimulus.action s.beginStep = .run i) :
    step s = exec i s.beginStep := by
  simp [step, h]

/-- Everything a step that makes a transition can have done: run an operation, or let a held one look again. -/
theorem step_next (h : step s = .next t) :
    (∃ i, exec i s.beginStep = .next t) ∨ ∃ k, resumeHeld k s.beginStep = .next t := by
  unfold step at h
  split at h
  · next i _ => exact .inl ⟨i, h⟩
  · next k _ => exact .inr ⟨k, h⟩
  · cases h

theorem fetch_api {bs tail : Bytes} {i : Instr} (h : decode .api bs = .ok (i, tail)) (s : State) :
    fetch (.api bs) s = .run i := by
  simp [fetch, h]

theorem fetch_wire {bus : BusIx} {w : Word32} {dlc : Byte} {data : Payload} {f : CanFrame}
    (h : wireFrame w dlc data s.draws.pad = .ok f) : fetch (.wire bus w dlc data) s = .run (.rxEvent bus f) := by
  simp [fetch, h]

theorem onElmTask_run (h : s.elmHolding = false) (i : Instr) : onElmTask s i = .run i := by
  simp [onElmTask, h]

@[simp] theorem elmHolding_beginStep (s : State) : s.beginStep.elmHolding = s.elmHolding := rfl

/-- Settles O11: in each clause, what `fetch` answers for the stimulus is the operation the step runs. -/
theorem stepRunsTheScheduledOperation : Obligations.StepRunsTheScheduledOperation := by
  unfold Obligations.StepRunsTheScheduledOperation
  intro s
  refine ⟨rfl, fun st rest => nextStimulus_of_script, ?api, ?wire, ?host, ?poll, ?arbiter, ?rxTask, ?fsm, ?reset⟩
  case api =>
    intro bs i tail ha hd
    exact step_of_fetch_run (ha ▸ fetch_api hd s.beginStep)
  case wire =>
    intro bus w dlc data f ha hf
    exact step_of_fetch_run (ha ▸ fetch_wire (s := s.beginStep) hf)
  case host =>
    intro c ha hh
    exact step_of_fetch_run (ha ▸ onElmTask_run ((elmHolding_beginStep s).trans hh) (.hostByte c))
  case poll =>
    intro ha hh
    exact step_of_fetch_run (ha ▸ onElmTask_run ((elmHolding_beginStep s).trans hh) .checkForTimeout)
  case arbiter => exact fun ha => step_of_fetch_run (ha ▸ rfl)
  case rxTask => exact fun bus ha => step_of_fetch_run (ha ▸ rfl)
  case fsm => exact fun k c ha => step_of_fetch_run (ha ▸ rfl)
  case reset => exact fun ha => step_of_fetch_run (ha ▸ rfl)

/-! ### What no operation writes (R6, R32): the state's own updates -/

namespace SameEnv

theorem persist (s : State) : SameEnv s s.persist :=
  ⟨s.persist_inst, s.persist_clock, s.persist_draws, s.persist_script, s.persist_turn⟩

theorem loadSettings (s : State) : SameEnv s s.loadSettings :=
  ⟨s.loadSettings_inst, s.loadSettings_clock, s.loadSettings_draws, s.loadSettings_script, s.loadSettings_turn⟩

theorem startBuses (s : State) : SameEnv s s.startBuses :=
  ⟨s.startBuses_inst, s.startBuses_clock, s.startBuses_draws, s.startBuses_script, s.startBuses_turn⟩

theorem clearVolatile (s : State) : SameEnv s s.clearVolatile := ⟨rfl, rfl, rfl, rfl, rfl⟩

theorem freshEmulator (s : State) : SameEnv s s.freshEmulator := ⟨rfl, rfl, rfl, rfl, rfl⟩

theorem setBus (s : State) (b : BusIx) (x : Bus) : SameEnv s (s.setBus b x) := ⟨rfl, rfl, rfl, rfl, rfl⟩

theorem answer (s : State) (a : Answer) : SameEnv s (s.answer a) := ⟨rfl, rfl, rfl, rfl, rfl⟩

theorem logEvent (s : State) (e : LogEvent) : SameEnv s (s.logEvent e) := ⟨rfl, rfl, rfl, rfl, rfl⟩

theorem echoed (s : State) : SameEnv s s.echoed := by
  unfold State.echoed
  split
  · exact ⟨rfl, rfl, rfl, rfl, rfl⟩
  · exact .refl s

/-- The whole start-up sequence, step by step (R310). -/
theorem resetSequence (s : State) : SameEnv s s.resetSequence :=
  (clearVolatile s).trans ((loadSettings _).trans ((startBuses _).trans (freshEmulator _)))

/-! ### What no operation writes: the guarded operations -/

theorem of_onTransport {u : State} (h : onTransport s (.next u) = .next t) (hu : SameEnv s u) : SameEnv s t := by
  obtain ⟨_, hr⟩ := onTransport_next.1 h
  cases hr; exact hu

theorem of_onElm {u : State} (h : onElm s (.next u) = .next t) (hu : SameEnv s u) : SameEnv s t := by
  obtain ⟨_, hr⟩ := onElm_next.1 h
  cases hr; exact hu

theorem of_onValidBus {b : BusIx} {r : Result} (h : onValidBus s b r = .next t)
    (hr : r = .next t → SameEnv s t) : SameEnv s t := by
  obtain ⟨_, ⟨_, h⟩ | ⟨_, rfl⟩⟩ := onValidBus_next.1 h
  · exact hr h
  · exact logEvent s _

theorem of_busGetter {b : BusIx} {bad good : Answer} (h : busGetter s b bad good = .next t) : SameEnv s t := by
  obtain ⟨_, ⟨_, rfl⟩ | ⟨_, rfl⟩⟩ := busGetter_next.1 h
  · exact answer s good
  · exact (logEvent s _).trans (answer _ bad)

/-- A bus record replaced and the settings persisted: how every configuration operation that changes something ends. -/
theorem setBus_persist (s : State) (b : BusIx) (x : Bus) : SameEnv s (s.setBus b x).persist :=
  (setBus s b x).trans (persist _)

/-! ### What no operation writes: Transport Core, bridge and engine -/

theorem of_enable {b : BusIx} {rate : Word32} (h : execEnable b rate s = .next t) : SameEnv s t :=
  of_onValidBus h fun hr => by cases hr; exact setBus_persist s b _

theorem of_disable {b : BusIx} (h : execDisable b s = .next t) : SameEnv s t := by
  refine of_onValidBus h fun hr => ?_
  dsimp only at hr
  split at hr <;> cases hr
  · exact setBus_persist s b _
  · exact setBus s b _

theorem of_setBitrate {b : BusIx} {rate : Word32} (h : execSetBitrate b rate s = .next t) : SameEnv s t := by
  refine of_onValidBus h fun hr => ?_
  dsimp only at hr
  split at hr <;> cases hr
  · exact setBus_persist s b _
  · exact setBus s b _

theorem of_setListenOnly {b : BusIx} {flag : Bool} (h : execSetListenOnly b flag s = .next t) : SameEnv s t := by
  refine of_onValidBus h fun hr => ?_
  dsimp only at hr
  split at hr <;> cases hr
  · exact setBus_persist s b _
  · exact .refl s

theorem of_setNumBusses {n : Byte} (h : execSetNumBusses n s = .next t) : SameEnv s t := by
  obtain ⟨_, hr⟩ := onTransport_next.1 h
  split at hr
  · cases hr
  · split at hr <;> cases hr
    · exact SameEnv.trans (t := { s with numBusses := n }) ⟨rfl, rfl, rfl, rfl, rfl⟩ (persist _)
    · exact .refl s

theorem of_setBridge {b₁ b₂ : BusIx} (h : execSetBridge b₁ b₂ s = .next t) : SameEnv s t := by
  obtain ⟨_, hr⟩ := onTransport_next.1 h
  split at hr <;> cases hr
  · exact logEvent s _
  · exact ⟨rfl, rfl, rfl, rfl, rfl⟩

theorem of_receiveLook {b : BusIx} {f : Option CanFrame} {r : Int} (h : receiveLook b s = some (f, r, t)) :
    SameEnv s t := (Benign.receive h).kept.env

theorem of_receive {b : BusIx} (h : execReceive b s = .next t) : SameEnv s t := by
  obtain ⟨_, hr⟩ := onTransport_next.1 h
  split at hr
  · cases hr; exact ⟨rfl, rfl, rfl, rfl, rfl⟩
  · split at hr <;> cases hr
    · next hl => exact (of_receiveLook hl).trans (answer _ _)
    · exact ⟨rfl, rfl, rfl, rfl, rfl⟩

theorem of_rxEvent {b : BusIx} {f : CanFrame} (h : execRxEvent b f s = .next t) : SameEnv s t := by
  obtain ⟨_, hr⟩ := onTransport_next.1 h
  split at hr <;> cases hr
  · exact setBus s b _
  · exact .refl s

theorem of_handleBridge {b : BusIx} {f : CanFrame} (h : execHandleBridge b f s = .next t) : SameEnv s t :=
  (Benign.bridge rfl (fun u w => Benign.answer u (.bool w)) h).kept.env

theorem of_fsmStep {x : EngineByte} (h : execFsmStep x s = .next t) : SameEnv s t := by
  obtain ⟨_, _, _, _, _, _, _, _, rfl⟩ := execFsmStep_next h
  exact ⟨rfl, rfl, rfl, rfl, rfl⟩

/-- A held operation that looks again (R139). -/
theorem of_resumeHeld {k : Nat} (h : resumeHeld k s = .next t) : SameEnv s t := by
  have eraseHeld (u : State) : SameEnv u { u with held := u.held.eraseIdx k } := ⟨rfl, rfl, rfl, rfl, rfl⟩
  obtain ⟨_, rfl | ⟨_, _, c, r, u, _, he, rfl⟩ | ⟨_, _, _, u, _, hl, rfl⟩⟩ := resumeHeld_next h
  · exact .refl t
  · exact (sendEffect_env he).trans ((eraseHeld u).trans (finishSend_env c r _))
  · exact (of_receiveLook hl).trans ((eraseHeld u).trans (answer _ _))

/-! ### What no operation writes: the emulator -/

theorem of_atReply {sess' : ElmSession} {info : Bytes} (h : atReply sess' info s = .next t) : SameEnv s t := by
  obtain ⟨_, rfl⟩ := atReply_next.1 h
  exact ⟨rfl, rfl, rfl, rfl, rfl⟩

theorem of_pidRequest {data : Payload} {mode : Byte} {pid : BitVec 16} {expected : Byte}
    (h : pidRequest data mode pid expected s = .next t) : SameEnv s t := by
  obtain ⟨_, _, _, hs⟩ := pidRequest_next h
  exact sendThen_env hs

/-- A host line's command, by what kind of line it is (R75). -/
theorem of_execCommand {c : LineCmd} (h : execCommand c s = .next t) : SameEnv s t := by
  cases c with
  | pid4 | pid5 | pid6 | pid7 => exact of_pidRequest h
  | unknownAt | malformedAt | invalidLine => exact of_onElm h ⟨rfl, rfl, rfl, rfl, rfl⟩
  | _ => exact of_atReply h

theorem of_repeatLine (h : execRepeatLine s = .next t) : SameEnv s t := by
  obtain ⟨_, hr⟩ := onElm_next.1 h
  split at hr
  · cases hr; exact .refl s
  · exact of_execCommand hr

theorem of_dispatchLine {line : Bytes} (h : execDispatchLine line s = .next t) : SameEnv s t := by
  obtain ⟨_, hr⟩ := onElm_next.1 h
  split at hr
  · exact of_repeatLine hr
  · exact SameEnv.trans (t := { s with lastCmd := line }) ⟨rfl, rfl, rfl, rfl, rfl⟩ (of_execCommand hr)

theorem of_hostByte {c : Byte} (h : execHostByte c s = .next t) : SameEnv s t := by
  have setLine (line : Bytes) : SameEnv s { s.echoed with lineBuf := line } :=
    (echoed s).trans ⟨rfl, rfl, rfl, rfl, rfl⟩
  obtain ⟨_, hr⟩ := onElm_next.1 h
  split at hr
  · exact (setLine []).trans (of_dispatchLine hr)
  · split at hr <;> cases hr
    exact setLine _

/-! ### What no operation writes: every instruction, and every step -/

theorem of_exec {i : Instr} (h : exec i s = .next t) : SameEnv s t := by
  cases i with
  | enable => exact of_enable h
  | disable => exact of_disable h
  | setBitrate => exact of_setBitrate h
  | setListenOnly => exact of_setListenOnly h
  | isEnabled | getBitrate | isListenOnly | getRxBufferedFrames | getTxBufferedFrames | getRxOverflowCount
  | getTxOverflowCount | getStatistics => exact of_busGetter h
  | getNumBusses => exact of_onTransport h (answer s _)
  | setNumBusses => exact of_setNumBusses h
  | send => exact sendThen_env h
  | receive => exact of_receive h
  | setBridge => exact of_setBridge h
  | handleBridge => exact of_handleBridge h
  | rxEvent => exact of_rxEvent h
  | txStep => exact (Benign.tx h).kept.env
  | rxTaskStep => exact (Benign.rxStep h).kept.env
  | persist => exact of_onTransport h (persist s)
  | loadSettings => exact of_onTransport h (loadSettings s)
  | fsmStep => exact of_fsmStep h
  | atdesc | atsp | atat | atst | atdp | atpc | atrv | at1 | atsh | atma | ate | atm | atl | ats | ath | atd
  | atz | ati => exact of_atReply h
  | pid4 | pid5 | pid6 | pid7 => exact of_pidRequest h
  | unknownAt | malformedAt | invalidLine => exact of_onElm h ⟨rfl, rfl, rfl, rfl, rfl⟩
  | repeatLine => exact of_repeatLine h
  | hostByte => exact of_hostByte h
  | dispatchLine => exact of_dispatchLine h
  | handleCanFrame => exact (Benign.handle h).kept.env
  | processCanFrame => exact (Benign.process (onElm_next.1 h).2).kept.env
  | formatFrameOutput => exact of_onElm h (answer s _)
  | sendFlowControl => exact sendThen_env (onElm_next.1 h).2
  | updateTimeout | closeOut => exact of_onElm h ⟨rfl, rfl, rfl, rfl, rfl⟩
  | checkForTimeout => exact (Benign.poll h).kept.env
  | reset => cases h; exact resetSequence s

/-- Beyond what `beginStep` sets, a step writes nothing of the environment. -/
theorem of_step (h : step s = .next t) : SameEnv s.beginStep t := by
  obtain ⟨_, hi⟩ | ⟨_, hk⟩ := step_next h
  · exact of_exec hi
  · exact of_resumeHeld hk

end SameEnv

/-- Settles O15, from the kept environment of every instruction and of every step. -/
theorem parametersNeverChange : Obligations.ParametersNeverChange := by
  unfold Obligations.ParametersNeverChange
  refine ⟨fun i s t h => ?_, fun s t h => (SameEnv.of_step h).inst⟩
  obtain ⟨hinst, hclock, hdraws, hscript, hturn⟩ := SameEnv.of_exec h
  exact ⟨hinst, hclock, hdraws, hscript, hturn⟩

end Sys2Proof.Machine
end

section
/-! PROOFS of the family 10_state: what a step can start, disabled subsystems (R29), queues, counters and output streams
over a step (R15 to R18, R30), the persisted record (R28), the invariant at reset and over a step (R12 to R24). -/

namespace Sys2Proof.Machine

variable {s t u : State}

/-! ### Disabled subsystems (R29, U12) -/

theorem onTransport_disabled {r : Result} (h : s.transportOk = false) :
    onTransport s r = .refused (.subsystemDisabled .transport) := by
  simp [onTransport, h]

theorem onElm_disabled {r : Result} (h : s.elmOk = false) :
    onElm s r = .refused (.subsystemDisabled .elm) := by
  simp [onElm, h]

/-- Whatever an operation of the Transport does, it does behind the subsystem's guard. -/
theorem exec_eq_onTransport {i : Instr} (h : ownedBy i = some .transport) (s : State) :
    ∃ r, exec i s = onTransport s r := by
  cases i with
  | enable | disable | setBitrate | setListenOnly | isEnabled | getBitrate | isListenOnly | send | receive
  | getRxBufferedFrames | getTxBufferedFrames | getRxOverflowCount | getTxOverflowCount | getNumBusses
  | setNumBusses | getStatistics | setBridge | handleBridge | rxEvent | txStep | rxTaskStep | persist
  | loadSettings => exact ⟨_, rfl⟩
  | _ => nomatch h

/-- Whatever an operation of the emulator does, it does behind the subsystem's guard. -/
theorem exec_eq_onElm {i : Instr} (h : ownedBy i = some .elm) (s : State) : ∃ r, exec i s = onElm s r := by
  cases i with
  | atdesc | atsp | atat | atst | atdp | atpc | atrv | at1 | atsh | atma | ate | atm | atl | ats | ath | atd | atz
  | ati | repeatLine | pid4 | pid5 | pid6 | pid7 | unknownAt | malformedAt | invalidLine | hostByte | dispatchLine
  | handleCanFrame | processCanFrame | formatFrameOutput | sendFlowControl | updateTimeout | checkForTimeout
  | closeOut => exact ⟨_, rfl⟩
  | _ => nomatch h

/-- Settles O22: every owned instruction stands behind its subsystem's guard, which refuses when that is down. -/
theorem disabledSubsystemRefuses : Obligations.DisabledSubsystemRefuses := by
  unfold Obligations.DisabledSubsystemRefuses
  intro i s
  constructor
  · intro howned hdown
    obtain ⟨r, hr⟩ := exec_eq_onTransport howned s
    rw [hr, onTransport_disabled hdown]
  · intro howned hdown
    obtain ⟨r, hr⟩ := exec_eq_onElm howned s
    rw [hr, onElm_disabled hdown]

/-! ### What a step can start (R7) -/

/-- The operations a stimulus other than the reset can start in `s`. -/
inductive Starts (s : State) : Instr → Prop where
  | api {i : Instr} (h : apiInstr i = true) : Starts s i
  | wire (bus : BusIx) (f : CanFrame) : Starts s (.rxEvent bus f)
  | host (c : Byte) (h : s.elmHolding = false) : Starts s (.hostByte c)
  | poll : Starts s .checkForTimeout
  | arbiter : Starts s .txStep
  | rxTask (bus : BusIx) : Starts s (.rxTaskStep bus)
  | fsm (x : EngineByte) : Starts s (.fsmStep x)

theorem onElmTask_eq_run {i j : Instr} (h : onElmTask s i = .run j) : s.elmHolding = false ∧ j = i := by
  unfold onElmTask at h
  split at h <;> cases h
  next hh => exact ⟨by simpa using hh, rfl⟩

/-- Everything `fetch` can start. -/
theorem fetch_run {a : Action} {i : Instr} (h : fetch a s = .run i) : (a = .reset ∧ i = .reset) ∨ Starts s i := by
  unfold fetch at h
  cases a with
  | api bs =>
    dsimp only at h
    split at h <;> cases h
    next hd => exact .inr (.api (decode_api hd))
  | wire bus w dlc data =>
    dsimp only at h
    split at h <;> cases h
    exact .inr (.wire bus _)
  | host c =>
    obtain ⟨hh, rfl⟩ := onElmTask_eq_run h
    exact .inr (.host c hh)
  | poll =>
    obtain ⟨_, rfl⟩ := onElmTask_eq_run h
    exact .inr .poll
  | arbiter => cases h; exact .inr .arbiter
  | rxTask bus => cases h; exact .inr (.rxTask bus)
  | fsm k c => cases h; exact .inr (.fsm ⟨k, c⟩)
  | resume k => cases h
  | reset => cases h; exact .inl ⟨rfl, rfl⟩

/-- Everything a step can be: the reset, a started operation, or a held one that looks again. -/
theorem step_cases (h : step s = .next t) :
    (s.nextStimulus.action = .reset ∧ t = s.beginStep.resetSequence) ∨
      (∃ i, Starts s.beginStep i ∧ exec i s.beginStep = .next t) ∨ ∃ k, resumeHeld k s.beginStep = .next t := by
  unfold step at h
  split at h
  · next i hf =>
    obtain ⟨ha, rfl⟩ | hs := fetch_run hf
    · cases h; exact .inl ⟨ha, rfl⟩
    · exact .inr (.inl ⟨i, hs, h⟩)
  · next k _ => exact .inr (.inr ⟨k, h⟩)
  · cases h

/-! ### Configuration operations (R101 to R104) -/

/-- What a command to its controller and a new configuration leave of a bus: the queues, the counters and the frames
put out as they are, the registration and the commands already given kept. -/
structure BusControl (x y : Bus) : Prop where
  rxq : y.rxq = x.rxq
  txq : y.txq = x.txq
  rxOverflow : y.rxOverflow = x.rxOverflow
  txOverflow : y.txOverflow = x.txOverflow
  canOut : y.canOut = x.canOut
  registered : x.irqRegistered = true → y.irqRegistered = true
  ctrlCmd : x.ctrlCmd <+: y.ctrlCmd

namespace BusControl

variable {x y z : Bus}

theorem refl (x : Bus) : BusControl x x := ⟨rfl, rfl, rfl, rfl, rfl, id, List.prefix_rfl⟩

theorem trans (h : BusControl x y) (g : BusControl y z) : BusControl x z :=
  ⟨g.rxq.trans h.rxq, g.txq.trans h.txq, g.rxOverflow.trans h.rxOverflow, g.txOverflow.trans h.txOverflow,
    g.canOut.trans h.canOut, g.registered ∘ h.registered, h.ctrlCmd.trans g.ctrlCmd⟩

theorem ctrlStart (x : Bus) (r : Word32) : BusControl x (x.ctrlStart r) :=
  ⟨rfl, rfl, rfl, rfl, rfl, fun _ => rfl, List.prefix_append _ _⟩

theorem ctrlStop (x : Bus) : BusControl x x.ctrlStop := ⟨rfl, rfl, rfl, rfl, rfl, id, List.prefix_append _ _⟩

theorem setCfg (h : BusControl x y) (c : BusConfig) : BusControl x { y with cfg := c } :=
  ⟨h.rxq, h.txq, h.rxOverflow, h.txOverflow, h.canOut, h.registered, h.ctrlCmd⟩

theorem ite {c : Bool} (hy : BusControl x y) (hz : BusControl x z) : BusControl x (if c then y else z) := by
  cases c
  · exact hz
  · exact hy

theorem move (p : Params) (h : BusControl x y) : BusMove p x y :=
  ⟨.inl h.rxq, .inl h.txq, h.registered, by rw [h.canOut], h.ctrlCmd, .inl h.rxOverflow, .inl h.txOverflow⟩

end BusControl

/-- A running controller is registered, enabled and at the stored rate (R14, R15). -/
def Bus.ControllerSound (x : Bus) : Prop :=
  x.ctrlRunning = true → x.irqRegistered = true ∧ x.cfg.enabled = true ∧ x.ctrlRate = x.cfg.bitrate

theorem Bus.Inv.controllerSound {p : Params} {x : Bus} (h : x.Inv p) : x.ControllerSound :=
  fun hr => ⟨h.running_registered hr, h.running_enabled hr, h.running_rate hr⟩

theorem Bus.controllerSound_of_stopped {x : Bus} (h : x.ctrlRunning = false) : x.ControllerSound := by
  simp [Bus.ControllerSound, h]

theorem BusControl.inv {p : Params} {x y : Bus} (h : BusControl x y) (hy : y.ControllerSound) (hx : x.Inv p) :
    y.Inv p where
  rxq_fits := h.rxq ▸ hx.rxq_fits
  txq_fits := h.txq ▸ hx.txq_fits
  running_registered hr := (hy hr).1
  running_enabled hr := (hy hr).2.1
  running_rate hr := (hy hr).2.2

/-- Everything a configuration operation on bus `b` can leave. -/
inductive ConfigEffect (s : State) (b : BusIx) : State → Prop where
  | invalid : ConfigEffect s b (s.logEvent (.invalidBus b))
  | unchanged : ConfigEffect s b s
  | written (y : Bus) (hc : BusControl (s.bus b) y) (hy : (s.bus b).ControllerSound → y.ControllerSound) :
      ConfigEffect s b (s.setBus b y)
  | persisted (y : Bus) (hc : BusControl (s.bus b) y) (hy : (s.bus b).ControllerSound → y.ControllerSound) :
      ConfigEffect s b (s.setBus b y).persist

namespace ConfigEffect

variable {b : BusIx}

theorem of_onValidBus {r : Result} (h : onValidBus s b r = .next t) (hr : r = .next t → ConfigEffect s b t) :
    ConfigEffect s b t := by
  obtain ⟨_, ⟨_, h⟩ | ⟨_, rfl⟩⟩ := onValidBus_next.1 h
  · exact hr h
  · exact .invalid

/-- `ENABLE` ends with the controller started at the rate it stores. -/
theorem of_enable {rate : Word32} (h : execEnable b rate s = .next t) : ConfigEffect s b t := by
  refine of_onValidBus h fun hr => ?_
  cases hr
  have hc := BusControl.ite (c := (s.bus b).cfg.enabled) (BusControl.ctrlStop (s.bus b)) (BusControl.refl (s.bus b))
  exact .persisted _ ((hc.trans (.ctrlStart _ _)).setCfg _) fun _ _ => ⟨rfl, rfl, rfl⟩

/-- `DISABLE` ends with the controller stopped. -/
theorem of_disable (h : execDisable b s = .next t) : ConfigEffect s b t := by
  refine of_onValidBus h fun hr => ?_
  have hc := BusControl.ite (c := (s.bus b).ctrlRunning) (BusControl.ctrlStop (s.bus b)) (BusControl.refl (s.bus b))
  have hstop : (if (s.bus b).ctrlRunning then (s.bus b).ctrlStop else s.bus b).ctrlRunning = false := by
    cases hrun : (s.bus b).ctrlRunning
    · exact hrun
    · rfl
  dsimp only at hr
  split at hr <;> cases hr
  · exact .persisted _ (hc.setCfg _) fun _ => Bus.controllerSound_of_stopped hstop
  · exact .written _ hc fun _ => Bus.controllerSound_of_stopped hstop

/-- `SET_BITRATE` restarts an enabled bus at the rate it stores; a bus that is not enabled does not run. -/
theorem of_setBitrate {rate : Word32} (h : execSetBitrate b rate s = .next t) : ConfigEffect s b t := by
  refine of_onValidBus h fun hr => ?_
  generalize clampRate s.inst rate = r at hr
  have hc := BusControl.ite (c := (s.bus b).cfg.enabled)
    ((BusControl.ctrlStop (s.bus b)).trans (.ctrlStart _ r)) (BusControl.refl (s.bus b))
  dsimp only at hr
  split at hr <;> cases hr
  · refine .persisted _ (hc.setCfg _) fun hx => ?_
    cases he : (s.bus b).cfg.enabled
    · exact fun hrun => absurd (hx hrun).2.1 (by simp [he])
    · exact fun _ => ⟨rfl, he, rfl⟩
  · next hne =>
    have hrate : (s.bus b).cfg.bitrate = r := by simpa using hne
    refine .written _ hc fun hx => ?_
    cases he : (s.bus b).cfg.enabled
    · exact hx
    · exact fun _ => ⟨rfl, he, hrate.symm⟩

/-- `SET_LISTENONLY` touches no controller. -/
theorem of_setListenOnly {flag : Bool} (h : execSetListenOnly b flag s = .next t) : ConfigEffect s b t := by
  refine of_onValidBus h fun hr => ?_
  dsimp only at hr
  split at hr <;> cases hr
  · exact .persisted _ ((BusControl.refl _).setCfg _) id
  · exact .unchanged

end ConfigEffect

/-- Everything `SET_NUM_BUSSES` can do when it is not refused (R109). -/
theorem execSetNumBusses_next {n : Byte} (h : execSetNumBusses n s = .next t) :
    t = s ∨ (n.toNat < s.inst.maxBusses ∧ t = ({ s with numBusses := n } : State).persist) := by
  obtain ⟨_, hr⟩ := onTransport_next.1 h
  split at hr
  · cases hr
  · next hn =>
    simp only [Bool.or_eq_true, decide_eq_true_eq, not_or, Nat.not_le] at hn
    split at hr <;> cases hr
    · exact .inr ⟨hn.1, rfl⟩
    · exact .inl rfl

/-! ### Buses and output streams over a step (R15 to R18, R30) -/

/-- A receive queue takes a frame, or counts it when it is full (R130). -/
theorem BusMove.rxEvent (p : Params) (f : CanFrame) (x : Bus) : BusMove p x (x.rxEvent p.rxqDepth f) := by
  unfold Bus.rxEvent
  split
  · exact ⟨.inr (.inl ⟨f, rfl⟩), .inl rfl, id, List.prefix_rfl, List.prefix_rfl, .inl rfl, .inl rfl⟩
  · next hfull =>
    exact ⟨.inl rfl, .inl rfl, id, List.prefix_rfl, List.prefix_rfl, .inr ⟨rfl, Nat.not_lt.1 hfull, rfl⟩, .inl rfl⟩

/-- The buses move as queues and counters may, and nothing put out is taken back. -/
structure Forward (s t : State) : Prop where
  moves : Moves s t
  appends : Appends s t

namespace Forward

theorem of_config {b : BusIx} (h : ConfigEffect s b t) : Forward s t := by
  cases h with
  | invalid => exact ⟨.of_buses rfl rfl, .logEvent s _⟩
  | unchanged => exact ⟨.of_buses rfl rfl, .refl s⟩
  | written y hc _ => exact ⟨.set rfl rfl (hc.move _), .of rfl⟩
  | persisted y hc _ => exact ⟨.cfgSet (hc.move _), (Appends.persist (s.setBus b y)).after rfl⟩

theorem of_setNumBusses {n : Byte} (h : execSetNumBusses n s = .next t) : Forward s t := by
  obtain rfl | ⟨_, rfl⟩ := execSetNumBusses_next h
  · exact ⟨.of_buses rfl rfl, .refl t⟩
  · exact ⟨.of_buses (by simp) (by simp), (Appends.persist { s with numBusses := n }).after rfl⟩

theorem of_receive {b : BusIx} (h : execReceive b s = .next t) : Forward s t := by
  obtain ⟨_, hr⟩ := onTransport_next.1 h
  split at hr
  · cases hr; exact ⟨.of_buses rfl rfl, (Appends.logEvent s _).trans (.answer _ _)⟩
  · split at hr <;> cases hr
    · next hl => exact ⟨(Moves.receiveLook hl).congr rfl rfl, (Appends.receive hl).trans (.answer _ _)⟩
    · exact ⟨.of_buses rfl rfl, .of rfl⟩

theorem of_setBridge {b₁ b₂ : BusIx} (h : execSetBridge b₁ b₂ s = .next t) : Forward s t := by
  obtain ⟨_, hr⟩ := onTransport_next.1 h
  split at hr <;> cases hr
  · exact ⟨.of_buses rfl rfl, .logEvent s _⟩
  · exact ⟨.of_buses rfl rfl, .of rfl⟩

theorem of_handleBridge {b : BusIx} {f : CanFrame} (h : execHandleBridge b f s = .next t) : Forward s t :=
  ⟨.bridgeFrame (fun u _ _ hb hi e => e ▸ .of_buses (t := u.answer _) hb hi) h,
    .bridge (fun u _ => .answer u _) h⟩

theorem of_rxEvent {b : BusIx} {f : CanFrame} (h : execRxEvent b f s = .next t) : Forward s t := by
  obtain ⟨_, hr⟩ := onTransport_next.1 h
  split at hr <;> cases hr
  · exact ⟨.set rfl rfl (BusMove.rxEvent s.inst f _), .of rfl⟩
  · exact ⟨.of_buses rfl rfl, .refl s⟩

theorem of_api {i : Instr} (ha : apiInstr i = true) (h : exec i s = .next t) : Forward s t := by
  cases i with
  | enable => exact of_config (.of_enable h)
  | disable => exact of_config (.of_disable h)
  | setBitrate => exact of_config (.of_setBitrate h)
  | setListenOnly => exact of_config (.of_setListenOnly h)
  | isEnabled | getBitrate | isListenOnly | getRxBufferedFrames | getTxBufferedFrames | getRxOverflowCount
  | getTxOverflowCount | getStatistics => exact ⟨.getter h, .getter h⟩
  | getNumBusses =>
    obtain ⟨_, hr⟩ := onTransport_next.1 h
    cases hr; exact ⟨.of_buses rfl rfl, .answer s _⟩
  | setNumBusses => exact of_setNumBusses h
  | send => exact ⟨.sendThen rfl rfl h, .send h⟩
  | receive => exact of_receive h
  | setBridge => exact of_setBridge h
  | handleBridge => exact of_handleBridge h
  | _ => nomatch ha

theorem of_exec {i : Instr} (hi : Starts s i) (h : exec i s = .next t) : Forward s t := by
  cases hi with
  | api ha => exact of_api ha h
  | wire => exact of_rxEvent h
  | host => exact ⟨.hostByte h, .hostByte h⟩
  | poll => exact ⟨.poll h, .poll h⟩
  | arbiter => exact ⟨.tx h, .tx h⟩
  | rxTask => exact ⟨.rxStep h, .rxStep h⟩
  | fsm => exact ⟨.fsm h, .fsm h⟩

theorem of_resumeHeld {k : Nat} (h : resumeHeld k s = .next t) : Forward s t := by
  refine ⟨?_, .resume h⟩
  obtain ⟨_, rfl | ⟨_, _, c, r, u, _, he, rfl⟩ | ⟨_, _, _, u, _, hl, rfl⟩⟩ := resumeHeld_next h
  · exact .of_buses rfl rfl
  · exact Moves.finish (t := { u with held := u.held.eraseIdx k }) ((Moves.sendEffect he).congr rfl rfl) c r
  · exact (Moves.receiveLook hl).congr rfl rfl

/-- Every step but a reset; what `beginStep` sets is neither a bus nor an output. -/
theorem of_step (h : step s = .next t) (hr : s.nextStimulus.action ≠ .reset) : Forward s t := by
  have hf : Forward s.beginStep t := by
    obtain ⟨ha, _⟩ | ⟨_, hs, hi⟩ | ⟨_, hk⟩ := step_cases h
    · exact absurd ha hr
    · exact of_exec hs hi
    · exact of_resumeHeld hk
  exact ⟨.before rfl rfl hf.moves, hf.appends.after rfl⟩

end Forward

/-- Settles O16, from the move every step but a reset makes of every bus. -/
theorem queuesAreFifo : Obligations.QueuesAreFifo := by
  unfold Obligations.QueuesAreFifo
  intro s t h hr b
  have hmove := (Forward.of_step h hr).moves b
  exact ⟨hmove.rxq, hmove.txq⟩

/-- Settles O17, from the move of every bus and from the streams only growing. -/
theorem registrationIsNeverUndone : Obligations.RegistrationIsNeverUndone := by
  unfold Obligations.RegistrationIsNeverUndone
  intro s t h hr
  obtain ⟨hmoves, hout, hlog, hans, hadapter⟩ := Forward.of_step h hr
  exact ⟨fun b => ⟨(hmoves b).registered, (hmoves b).canOut, (hmoves b).ctrlCmd⟩, hout, hlog, hans, hadapter⟩

/-- Settles O18, from the move every step but a reset makes of every bus. -/
theorem overflowCountsDroppedFrames : Obligations.OverflowCountsDroppedFrames := by
  unfold Obligations.OverflowCountsDroppedFrames
  intro s t h hr b
  have hmove := (Forward.of_step h hr).moves b
  exact ⟨hmove.rxOverflow, hmove.txOverflow⟩

/-! ### Host lines -/

/-- A host line's command is a PID request, or it writes the session and the output streams alone. -/
theorem execCommand_next {c : LineCmd} (h : execCommand c s = .next t) :
    Benign s t ∨ ∃ data mode pid expected, pidRequest data mode pid expected s = .next t := by
  have bad {e bs} (h : onElm s (.next ((s.raiseError e none).emit bs)) = .next t) : Benign s t := by
    obtain ⟨_, hr⟩ := onElm_next.1 h
    cases hr
    exact (Benign.log s e).trans (.emit _ bs)
  cases c with
  | pid4 | pid5 | pid6 | pid7 => exact .inr ⟨_, _, _, _, h⟩
  | unknownAt | malformedAt | invalidLine => exact .inl (bad h)
  | _ =>
    obtain ⟨_, rfl⟩ := atReply_next.1 h
    exact .inl ⟨.of ⟨rfl, rfl, rfl, rfl, rfl⟩ rfl, .of_buses rfl, .of_eq rfl rfl⟩

/-- What `DISPATCH_LINE` executes: nothing, the remembered command, or the line, remembered first (R191, R192). -/
theorem execDispatchLine_next {line : Bytes} (h : execDispatchLine line s = .next t) :
    t = s ∨ (∃ c, execCommand c s = .next t) ∨ ∃ c, execCommand c { s with lastCmd := line } = .next t := by
  obtain ⟨_, hr⟩ := onElm_next.1 h
  split at hr
  · obtain ⟨_, hr⟩ := onElm_next.1 hr
    split at hr
    · cases hr; exact .inl rfl
    · exact .inr (.inl ⟨_, hr⟩)
  · exact .inr (.inr ⟨_, hr⟩)

theorem Benign.echoed (s : State) : Benign s s.echoed := by
  unfold State.echoed
  split
  · exact .emit s _
  · exact .refl s

/-- What `HOST_BYTE` does to the line: it grows by a byte where there is room, or it is emptied and a command runs, the
remembered one (`last` as it was) or the line (R190). -/
theorem execHostByte_next {c : Byte} (h : execHostByte c s = .next t) :
    (s.lineBuf.length < s.inst.lineMax ∧ t = { s.echoed with lineBuf := s.lineBuf ++ [c] }) ∨
      t = { s.echoed with lineBuf := [] } ∨
      ∃ last cmd, (last = s.lastCmd ∨ last = s.lineBuf) ∧
        execCommand cmd { s.echoed with lineBuf := [], lastCmd := last } = .next t := by
  obtain ⟨_, hr⟩ := onElm_next.1 h
  split at hr
  · obtain rfl | ⟨cmd, hc⟩ | ⟨cmd, hc⟩ := execDispatchLine_next hr
    · exact .inr (.inl rfl)
    · exact .inr (.inr ⟨s.lastCmd, cmd, .inl rfl, by rw [← (Benign.echoed s).kept.lastCmd]; exact hc⟩)
    · exact .inr (.inr ⟨s.lineBuf, cmd, .inr rfl, hc⟩)
  · split at hr <;> cases hr
    next hroom => exact .inl ⟨hroom, rfl⟩

/-- Where a PID request leaves off: nothing but the queue, its counter and the log is touched before the request is
armed or holds (R139, R215). -/
theorem pidRequest_effect {data : Payload} {mode : Byte} {pid : BitVec 16} {expected : Byte}
    (h : pidRequest data mode pid expected s = .next t) :
    s.pend.valid = false ∧ ∃ u, Benign s u ∧
      ((∃ now, t = { u with pend := armedRequest mode pid expected now }) ∨
        ∃ x, t = { u with held := u.held ++ [x] }) := by
  obtain ⟨_, hfree, _, hsend⟩ := pidRequest_next h
  obtain ⟨_, ⟨r, u, he, rfl⟩ | ⟨_, rfl⟩⟩ := sendThen_next hsend
  · exact ⟨hfree, u, .sendEffect he, .inl ⟨_, rfl⟩⟩
  · exact ⟨hfree, s, .refl s, .inr ⟨_, rfl⟩⟩

/-! ### What a started operation does -/

/-- Everything a started operation can do, as far as the persisted record and the invariant are concerned. -/
inductive StartedEffect (s t : State) : Prop where
  | benign (h : Benign s t)
  | config (b : BusIx) (h : ConfigEffect s b t)
  | count (n : Byte) (hn : n.toNat < s.inst.maxBusses) (ht : t = ({ s with numBusses := n } : State).persist)
  | host (c : Byte) (hh : s.elmHolding = false) (h : execHostByte c s = .next t)
  | fsm (x : EngineByte) (h : execFsmStep x s = .next t)

theorem Benign.getter {b : BusIx} {bad good : Answer} (h : busGetter s b bad good = .next t) : Benign s t := by
  obtain ⟨_, ⟨_, rfl⟩ | ⟨_, rfl⟩⟩ := busGetter_next.1 h
  · exact .answer s good
  · exact (Benign.log s _).trans (.answer _ bad)

theorem Benign.receiveOp {b : BusIx} (h : execReceive b s = .next t) : Benign s t := by
  obtain ⟨_, hr⟩ := onTransport_next.1 h
  split at hr
  · cases hr; exact (Benign.log s _).trans (.answer _ _)
  · split at hr <;> cases hr
    · next hl => exact (Benign.receive hl).trans (.answer _ _)
    · exact .held s _ rfl

theorem Benign.setBridge {b₁ b₂ : BusIx} (h : execSetBridge b₁ b₂ s = .next t) : Benign s t := by
  obtain ⟨_, hr⟩ := onTransport_next.1 h
  split at hr <;> cases hr
  · exact .log s _
  · exact ⟨.of ⟨rfl, rfl, rfl, rfl, rfl⟩ rfl, .of_buses rfl, .of_eq rfl rfl⟩

theorem Bus.Inv.rxEvent {p : Params} {x : Bus} (h : x.Inv p) (f : CanFrame) : (x.rxEvent p.rxqDepth f).Inv p := by
  unfold Bus.rxEvent
  split
  · next hroom =>
    exact ⟨by simpa using hroom, h.txq_fits, h.running_registered, h.running_enabled, h.running_rate⟩
  · exact ⟨h.rxq_fits, h.txq_fits, h.running_registered, h.running_enabled, h.running_rate⟩

theorem Benign.rxEvent {b : BusIx} {f : CanFrame} (h : execRxEvent b f s = .next t) : Benign s t := by
  obtain ⟨_, hr⟩ := onTransport_next.1 h
  split at hr <;> cases hr
  · exact ⟨.of ⟨rfl, rfl, rfl, rfl, rfl⟩ rfl, .set rfl fun hx => hx.rxEvent f, .of_eq rfl rfl⟩
  · exact .refl s

theorem StartedEffect.of_api {i : Instr} (ha : apiInstr i = true) (h : exec i s = .next t) : StartedEffect s t := by
  cases i with
  | enable => exact .config _ (.of_enable h)
  | disable => exact .config _ (.of_disable h)
  | setBitrate => exact .config _ (.of_setBitrate h)
  | setListenOnly => exact .config _ (.of_setListenOnly h)
  | isEnabled | getBitrate | isListenOnly | getRxBufferedFrames | getTxBufferedFrames | getRxOverflowCount
  | getTxOverflowCount | getStatistics => exact .benign (.getter h)
  | getNumBusses =>
    obtain ⟨_, hr⟩ := onTransport_next.1 h
    cases hr; exact .benign (.answer s _)
  | setNumBusses n =>
    obtain rfl | ⟨hn, ht⟩ := execSetNumBusses_next h
    · exact .benign (.refl t)
    · exact .count n hn ht
  | send => exact .benign (.send rfl h)
  | receive => exact .benign (.receiveOp h)
  | setBridge => exact .benign (.setBridge h)
  | handleBridge => exact .benign (.bridge rfl (fun u w => .answer u (.bool w)) h)
  | _ => nomatch ha

theorem StartedEffect.of_exec {i : Instr} (hi : Starts s i) (h : exec i s = .next t) : StartedEffect s t := by
  cases hi with
  | api ha => exact of_api ha h
  | wire => exact .benign (.rxEvent h)
  | host c hh => exact .host c hh h
  | poll => exact .benign (.poll h)
  | arbiter => exact .benign (.tx h)
  | rxTask => exact .benign (.rxStep h)
  | fsm x => exact .fsm x h

/-! ### The persisted record over a step (R28, R110, R312) -/

theorem execCommand_nvm {c : LineCmd} (h : execCommand c s = .next t) : t.nvm = s.nvm := by
  obtain hb | ⟨_, _, _, _, hp⟩ := execCommand_next h
  · exact hb.kept.nvm
  · obtain ⟨_, u, hb, ⟨_, rfl⟩ | ⟨_, rfl⟩⟩ := pidRequest_effect hp
    · exact hb.kept.nvm
    · exact hb.kept.nvm

theorem execHostByte_nvm {c : Byte} (h : execHostByte c s = .next t) : t.nvm = s.nvm := by
  have hecho := (Benign.echoed s).kept.nvm
  obtain ⟨_, rfl⟩ | rfl | ⟨_, _, _, hc⟩ := execHostByte_next h
  · exact hecho
  · exact hecho
  · exact (execCommand_nvm hc).trans hecho

theorem finishSend_nvm (k : SendCont) (r : Int) (s : State) : (finishSend k r s).nvm = s.nvm := by
  cases k with
  | pid => rfl
  | _ => exact (Benign.finish s _ r rfl).kept.nvm

theorem resumeHeld_nvm {k : Nat} (h : resumeHeld k s = .next t) : t.nvm = s.nvm := by
  obtain ⟨_, rfl | ⟨_, _, c, r, u, _, he, rfl⟩ | ⟨_, _, _, u, _, hl, rfl⟩⟩ := resumeHeld_next h
  · rfl
  · exact (finishSend_nvm c r _).trans (Benign.sendEffect he).kept.nvm
  · exact (Benign.receive hl).kept.nvm

/-- The persisted record is kept, or written in full with `t`'s count and configurations where the lock and the write
succeed. -/
def RecordWholeOrKept (s t : State) : Prop :=
  t.nvm = s.nvm ∨
    (s.draws.lockOk = true ∧ s.draws.persistOk = true ∧
      t.nvm = { valid := true, busCount := t.numBusses, busConfig := t.cfgs })

namespace RecordWholeOrKept

/-- `PERSIST` as the last thing an operation does. -/
theorem persist (hn : u.nvm = s.nvm) (hd : u.draws = s.draws) : RecordWholeOrKept s u.persist := by
  obtain ⟨_, e⟩ | ⟨_, _, e⟩ | ⟨hl, hp, e⟩ := u.persist_cases
  · exact .inl (by rw [e]; exact hn)
  · exact .inl (by rw [e]; exact hn)
  · exact .inr ⟨hd ▸ hl, hd ▸ hp, by rw [e]; rfl⟩

theorem of_config {b : BusIx} (h : ConfigEffect s b t) : RecordWholeOrKept s t := by
  cases h with
  | invalid | unchanged | written => exact .inl rfl
  | persisted => exact persist rfl rfl

theorem of_started (h : StartedEffect s t) : RecordWholeOrKept s t := by
  cases h with
  | benign h => exact .inl h.kept.nvm
  | config b h => exact of_config h
  | count n _ ht => exact ht ▸ persist rfl rfl
  | host c _ h => exact .inl (execHostByte_nvm h)
  | fsm x h =>
    obtain ⟨_, _, _, _, _, _, _, _, rfl⟩ := execFsmStep_next h
    exact .inl rfl

theorem of_step (h : step s = .next t) : RecordWholeOrKept s.beginStep t := by
  obtain ⟨_, rfl⟩ | ⟨_, hs, hi⟩ | ⟨_, hk⟩ := step_cases h
  · exact .inl (by simp [State.resetSequence])
  · exact of_started (.of_exec hs hi)
  · exact .inl (resumeHeld_nvm hk)

end RecordWholeOrKept

/-- Settles O19: only operations that end with `PERSIST` write the record. -/
theorem persistedRecordIsWholeOrKept : Obligations.PersistedRecordIsWholeOrKept := by
  unfold Obligations.PersistedRecordIsWholeOrKept
  exact fun _ _ h => RecordWholeOrKept.of_step h

/-! ### The engines stand on registered states (R178) -/

theorem has_of_fsmLookup {reg : FsmRegistry} {id : Nat} {h : FsmHandler} (hl : fsmLookup reg id = some h) :
    reg.has id = true := by
  obtain ⟨p, hp, _⟩ := Option.map_eq_some_iff.1 hl
  have hid : (p.1 == id) = true := List.find?_some (p := fun q : Nat × FsmHandler => q.1 == id) hp
  exact List.any_eq_true.2 ⟨p, List.mem_of_find?_eq_some hp, hid⟩

/-- The identity on which the loop of R177 stops is registered. -/
def Cascade.Registered (reg : FsmRegistry) : Cascade → Prop
  | .stable current _ => reg.has current = true
  | .unknown current _ => reg.has current = true
  | .hang => True

/-- The loop moves to a target only after the lookup found it. -/
theorem cascade_registered {reg : FsmRegistry} (fuel : Nat) {current : Nat} (next user : Nat)
    (hc : reg.has current = true) : (cascade reg fuel current next user).Registered reg := by
  induction fuel generalizing current next user with
  | zero =>
    unfold cascade
    split
    · exact hc
    · split
      · exact hc
      · trivial
  | succ fuel ih =>
    unfold cascade
    split
    · exact hc
    · split
      · exact hc
      · next hl => exact ih _ _ (has_of_fsmLookup hl)

theorem engineStep_registered {p : FsmParams} {e e' : FsmEngine} {byte : Byte} {free out : Nat} {unknown : Option Nat}
    (h : engineStep p e byte free = .done e' out unknown) : FsmRegistry.has p.registry e'.current = true := by
  unfold engineStep at h
  split at h
  · cases h
  · split at h
    · cases h
    · next hd hl =>
      have hc := cascade_registered (cascadeFuel p.registry) (fsmTick hd e.user byte).1 (fsmTick hd e.user byte).2.2
        (has_of_fsmLookup hl)
      dsimp only at h
      split at h
      · next heq => cases h; rw [heq] at hc; exact hc
      · next heq => cases h; rw [heq] at hc; exact hc
      · cases h

/-! ### Held requests (R23, R139) -/

theorem State.elmHolding_eq_false_iff (s : State) : s.elmHolding = false ↔ s.elmHolds = 0 := by
  simp [State.elmHolding, State.elmHolds]

theorem State.elmHolds_append_le (s : State) (x : Held) :
    ({ s with held := s.held ++ [x] } : State).elmHolds ≤ s.elmHolds + 1 := by
  cases hx : x.isElm <;> simp [State.elmHolds, List.filter_append, hx]

/-- An operation that is no longer held is one less that holds, if it was a request of `ELMTASK`. -/
theorem State.elmHolds_eraseIdx {k : Nat} {x : Held} (hk : s.held[k]? = some x) :
    ({ s with held := s.held.eraseIdx k } : State).elmHolds + (if x.isElm then 1 else 0) = s.elmHolds := by
  obtain ⟨hlt, rfl⟩ := List.getElem?_eq_some_iff.1 hk
  have hperm := (List.getElem_cons_eraseIdx_perm hlt).countP_eq Held.isElm
  simpa [State.elmHolds, List.countP_cons, ← List.countP_eq_length_filter] using hperm

/-! ### What keeps the invariant -/

namespace State.Inv

theorem beginStep (h : s.Inv) : s.beginStep.Inv := { h with }

theorem of_benign (h : s.Inv) (hb : Benign s t) : t.Inv where
  params_ok := hb.kept.env.inst ▸ h.params_ok
  buses_length := by rw [hb.good.1, hb.kept.env.inst, h.buses_length]
  count_below := by rw [hb.kept.numBusses, hb.kept.env.inst]; exact h.count_below
  nvm_length := by rw [hb.kept.nvm, hb.kept.env.inst, h.nvm_length]
  line_fits := by rw [hb.kept.lineBuf, hb.kept.env.inst]; exact h.line_fits
  last_fits := by rw [hb.kept.lastCmd, hb.kept.env.inst]; exact h.last_fits
  pend_cleared hv := (hb.pend.cleared hv).elim id fun e => e.trans (h.pend_cleared (e ▸ hv))
  one_request := by
    have hone := h.one_request
    have hdown := hb.pend.down
    rw [hb.pend.holds]
    cases hv : t.pend.valid
    · simp; omega
    · simpa [hdown hv] using hone
  engines_length := by rw [hb.kept.engines, hb.kept.env.inst, h.engines_length]
  engines_registered := by rw [hb.kept.engines, hb.kept.env.inst]; exact h.engines_registered
  buses_inv := by rw [hb.kept.env.inst]; exact hb.good.2 h.buses_inv

theorem setBus (h : s.Inv) (b : BusIx) {y : Bus} (hy : y.Inv s.inst) : (s.setBus b y).Inv :=
  { h with
    buses_length := List.length_set.trans h.buses_length
    buses_inv := fun x hx => (List.mem_or_eq_of_mem_set hx).elim (h.buses_inv x) fun e => e ▸ hy }

/-- `PERSIST` writes as many configurations as there are buses. -/
theorem persist (h : s.Inv) : s.persist.Inv := by
  obtain ⟨_, e⟩ | ⟨_, _, e⟩ | ⟨_, _, e⟩ := s.persist_cases <;> rw [e]
  · exact h.of_benign (.log s _)
  · exact h.of_benign (.log s _)
  · exact { h with nvm_length := (List.length_map ..).trans h.buses_length }

theorem of_config {b : BusIx} (h : s.Inv) (he : ConfigEffect s b t) : t.Inv := by
  have hx : (s.bus b).Inv s.inst := State.bus_inv h.buses_inv b
  cases he with
  | invalid => exact h.of_benign (.log s _)
  | unchanged => exact h
  | written y hc hy => exact h.setBus b (hc.inv (hy hx.controllerSound) hx)
  | persisted y hc hy => exact (h.setBus b (hc.inv (hy hx.controllerSound) hx)).persist

theorem setNumBusses (h : s.Inv) {n : Byte} (hn : n.toNat < s.inst.maxBusses) :
    ({ s with numBusses := n } : State).Inv :=
  { h with count_below := hn }

theorem setLines (h : s.Inv) {line last : Bytes} (hline : line.length ≤ s.inst.lineMax)
    (hlast : last.length ≤ s.inst.lineMax) : ({ s with lineBuf := line, lastCmd := last } : State).Inv :=
  { h with line_fits := hline, last_fits := hlast }

/-- A request is armed when none of `ELMTASK` holds. -/
theorem arm (h : s.Inv) (hh : s.elmHolds = 0) (service : Byte) (pid : BitVec 16) (expected : Byte) (now : Word32) :
    ({ s with pend := armedRequest service pid expected now } : State).Inv :=
  { h with
    pend_cleared := fun hv => nomatch hv
    one_request := Nat.add_le_add_right (Nat.le_of_eq hh) 1 }

/-- An operation holds when no request is outstanding and none of `ELMTASK` holds. -/
theorem hold (h : s.Inv) (hh : s.elmHolds = 0) (hp : s.pend.valid = false) (x : Held) :
    ({ s with held := s.held ++ [x] } : State).Inv :=
  { h with
    one_request := by
      have hle := s.elmHolds_append_le x
      simpa [hp, hh] using hle }

theorem eraseHeld (h : s.Inv) {k : Nat} {x : Held} (hk : s.held[k]? = some x) :
    ({ s with held := s.held.eraseIdx k } : State).Inv :=
  { h with
    one_request := by
      have hone := h.one_request
      have herase := State.elmHolds_eraseIdx hk
      dsimp only
      omega }

/-! ### The invariant over a host byte -/

theorem of_execCommand (h : s.Inv) (hh : s.elmHolds = 0) {c : LineCmd} (hc : execCommand c s = .next t) : t.Inv := by
  obtain hb | ⟨_, _, _, _, hp⟩ := execCommand_next hc
  · exact h.of_benign hb
  · obtain ⟨hfree, u, hb, ⟨_, rfl⟩ | ⟨x, rfl⟩⟩ := pidRequest_effect hp
    · exact (h.of_benign hb).arm (hb.pend.holds.trans hh) _ _ _ _
    · have hfree' : u.pend.valid = false := by
        cases hv : u.pend.valid
        · rfl
        · exact absurd (hb.pend.down hv) (by simp [hfree])
      exact (h.of_benign hb).hold (hb.pend.holds.trans hh) hfree' x

theorem of_hostByte (h : s.Inv) (hh : s.elmHolds = 0) {c : Byte} (hc : execHostByte c s = .next t) : t.Inv := by
  have hecho := Benign.echoed s
  have hsound : s.echoed.Inv := h.of_benign hecho
  have hmax : s.echoed.inst.lineMax = s.inst.lineMax := by rw [hecho.kept.env.inst]
  obtain ⟨hroom, rfl⟩ | rfl | ⟨last, cmd, hlast, hcmd⟩ := execHostByte_next hc
  · exact hsound.setLines (by simpa [hmax] using hroom) hsound.last_fits
  · exact hsound.setLines (Nat.zero_le _) hsound.last_fits
  · have hfits : last.length ≤ s.echoed.inst.lineMax := by
      rw [hmax]
      obtain rfl | rfl := hlast
      · exact h.last_fits
      · exact h.line_fits
    exact (hsound.setLines (Nat.zero_le _) hfits).of_execCommand (hecho.pend.holds.trans hh) hcmd

/-! ### The invariant over the other operations -/

theorem of_fsmStep (h : s.Inv) {x : EngineByte} (hx : execFsmStep x s = .next t) : t.Inv := by
  obtain ⟨p, e, e', out, unknown, hp, he, hstep, rfl⟩ := execFsmStep_next hx
  refine { h with engines_length := List.length_set.trans h.engines_length, engines_registered := ?_ }
  intro k q f hq hf
  by_cases hk : x.engine = k
  · subst hk
    obtain rfl : e' = f := by simpa [List.getElem?_set_self', he] using hf
    obtain rfl : p = q := Option.some.inj (hp.symm.trans hq)
    exact engineStep_registered hstep
  · exact h.engines_registered k q f hq ((List.getElem?_set_ne hk).symm.trans hf)

theorem of_started (h : s.Inv) (he : StartedEffect s t) : t.Inv := by
  cases he with
  | benign hb => exact h.of_benign hb
  | config b hc => exact h.of_config hc
  | count n hn ht => exact ht ▸ (h.setNumBusses hn).persist
  | host c hh hc => exact h.of_hostByte ((State.elmHolding_eq_false_iff s).1 hh) hc
  | fsm x hx => exact h.of_fsmStep hx

/-- A held request that ends is armed: it was the one request, so no other holds and none was outstanding. -/
theorem of_resumeHeld (h : s.Inv) {k : Nat} (hk : resumeHeld k s = .next t) : t.Inv := by
  obtain ⟨_, rfl | ⟨b, f, c, r, u, hheld, he, rfl⟩ | ⟨b, _, _, u, hheld, hl, rfl⟩⟩ := resumeHeld_next hk
  · exact h
  · have hu := h.of_benign (.sendEffect he)
    have hheld' : u.held[k]? = some (.send b f c) := by cases he <;> exact hheld
    cases c with
    | pid service pid expected =>
      refine (hu.eraseHeld hheld').arm ?_ service pid expected _
      have hone := hu.one_request
      have herase := State.elmHolds_eraseIdx hheld'
      simp only [Held.isElm, if_true] at herase
      omega
    | _ => exact (hu.eraseHeld hheld').of_benign (.finish _ _ r rfl)
  · have hu := h.of_benign (.receive hl)
    have hheld' : u.held[k]? = some (.receive b) := by
      obtain ⟨_, _, _, e⟩ | ⟨_, _, e⟩ | ⟨_, _, e⟩ := receiveLook_cases b s <;> rw [e] at hl <;> cases hl
      · exact hheld
      · exact hheld
    exact (hu.eraseHeld hheld').of_benign (.answer _ _)

end State.Inv

/-! ### The invariant at a reset (R38, R310) -/

theorem length_setCfgs (xs : List Bus) (cs : List BusConfig) : (setCfgs xs cs).length = xs.length := by
  induction xs generalizing cs with
  | nil => cases cs <;> rfl
  | cons x xs ih =>
    cases cs with
    | nil => rfl
    | cons c cs => simp [setCfgs, ih]

/-- Loading configurations changes nothing of a bus but its configuration. -/
theorem mem_setCfgs {xs : List Bus} {cs : List BusConfig} {y : Bus} (h : y ∈ setCfgs xs cs) :
    ∃ x ∈ xs, ∃ c, y = { x with cfg := c } := by
  induction xs generalizing cs with
  | nil => cases cs <;> cases h
  | cons x xs ih =>
    cases cs with
    | nil => exact ⟨y, h, y.cfg, rfl⟩
    | cons c cs =>
      obtain rfl | h := List.mem_cons.1 h
      · exact ⟨x, List.mem_cons_self, c, rfl⟩
      · obtain ⟨x', hx', hc⟩ := ih h
        exact ⟨x', List.mem_cons_of_mem _ hx', hc⟩

/-- A stopped bus is sound with any configuration. -/
theorem Bus.Inv.setCfg {p : Params} {x : Bus} (h : x.Inv p) (hstop : x.ctrlRunning = false) (c : BusConfig) :
    ({ x with cfg := c } : Bus).Inv p :=
  ((BusControl.refl x).setCfg c).inv (Bus.controllerSound_of_stopped hstop) h

theorem BusesSound.loadSettings (hstop : ∀ x ∈ s.buses, x.ctrlRunning = false) : BusesSound s s.loadSettings := by
  obtain ⟨_, e⟩ | ⟨_, e⟩ := s.loadSettings_cases <;> rw [e]
  · refine ⟨length_setCfgs _ _, fun h y hy => ?_⟩
    obtain ⟨x, hx, c, rfl⟩ := mem_setCfgs hy
    exact (h x hx).setCfg (hstop x hx) c
  · refine ⟨List.length_map .., fun h y hy => ?_⟩
    obtain ⟨x, hx, rfl⟩ := List.mem_map.1 hy
    exact (h x hx).setCfg (hstop x hx) _

theorem length_startEnabled (n : Nat) (xs : List Bus) : (startEnabled n xs).length = xs.length := by
  induction n generalizing xs with
  | zero => rfl
  | succ n ih =>
    cases xs with
    | nil => rfl
    | cons x xs => simp [startEnabled, ih]

/-- An enabled bus started at its stored rate is sound (R14). -/
theorem Bus.Inv.startIfEnabled {p : Params} {x : Bus} (h : x.Inv p) :
    (if x.cfg.enabled then x.ctrlStart x.cfg.bitrate else x).Inv p := by
  split
  · next he => exact (BusControl.ctrlStart x _).inv (fun _ => ⟨rfl, he, rfl⟩) h
  · exact h

theorem startEnabled_inv {p : Params} (n : Nat) {xs : List Bus} (h : ∀ x ∈ xs, x.Inv p) :
    ∀ y ∈ startEnabled n xs, y.Inv p := by
  induction n generalizing xs with
  | zero => exact h
  | succ n ih =>
    cases xs with
    | nil => exact h
    | cons x xs =>
      obtain ⟨hx, hxs⟩ := List.forall_mem_cons.1 h
      exact List.forall_mem_cons.2 ⟨hx.startIfEnabled, ih hxs⟩

theorem BusesSound.startBuses (s : State) : BusesSound s s.startBuses := by
  unfold State.startBuses
  split
  · exact ⟨length_startEnabled _ _, startEnabled_inv _⟩
  · exact .of_buses rfl

theorem Params.defaultNumBusses_lt {p : Params} (h : p.ok = true) : p.defaultNumBusses.toNat < p.maxBusses := by
  simp only [Params.ok, Bool.and_eq_true, decide_eq_true_eq] at h
  obtain ⟨⟨⟨_, hcount⟩, _⟩, _⟩ := h
  exact hcount

theorem Params.has_initial {p : Params} (h : p.ok = true) {e : FsmParams} (he : e ∈ p.engines) :
    FsmRegistry.has e.registry e.initial = true := by
  simp only [Params.ok, Bool.and_eq_true] at h
  exact List.all_eq_true.1 h.2 e he

theorem State.loadSettings_numBusses_lt (hp : s.inst.ok = true) :
    s.loadSettings.numBusses.toNat < s.inst.maxBusses := by
  obtain ⟨hok, e⟩ | ⟨_, e⟩ := s.loadSettings_cases <;> rw [e]
  · simp only [State.nvmOk, Bool.and_eq_true, decide_eq_true_eq] at hok
    exact hok.2
  · exact Params.defaultNumBusses_lt hp

/-- The start-up sequence makes every state sound whose parameters are, and whose persisted array is as long as the
buses' (R310, R312). -/
theorem State.resetSequence_inv (hp : s.inst.ok = true) (hn : s.nvm.busConfig.length = s.inst.maxBusses) :
    s.resetSequence.Inv := by
  have hcleared : ∀ x ∈ s.clearVolatile.buses, x = Bus.fresh (defaultCfg s.inst) := fun x => List.eq_of_mem_replicate
  have hsound : BusesSound s.clearVolatile s.clearVolatile.loadSettings.startBuses :=
    (BusesSound.loadSettings fun x hx => hcleared x hx ▸ rfl).trans (.startBuses _) (State.loadSettings_inst _)
  have hinst : s.resetSequence.inst = s.inst := (SameEnv.resetSequence s).inst
  constructor <;> try rw [hinst]
  case params_ok => exact hp
  case buses_length => exact hsound.1.trans List.length_replicate
  case count_below => simpa [State.resetSequence] using State.loadSettings_numBusses_lt (s := s.clearVolatile) hp
  case nvm_length => simpa [State.resetSequence] using hn
  case line_fits | last_fits => exact Nat.zero_le _
  case pend_cleared => exact fun _ => rfl
  case one_request => simp [State.resetSequence, State.elmHolds, Pending.none]
  case engines_length => simp [State.resetSequence]
  case engines_registered =>
    intro k p e hk he
    obtain rfl : FsmParams.fresh p = e := by simpa [State.resetSequence, hk] using he
    exact Params.has_initial hp (List.mem_of_getElem? hk)
  case buses_inv => exact hsound.2 fun x hx => hcleared x hx ▸ Bus.fresh_inv _ _

/-- Settles O14: the state right after reset is what the start-up sequence makes of it. -/
theorem resetHasInv : Obligations.ResetHasInv := by
  unfold Obligations.ResetHasInv
  have hreset : State.reset.resetSequence = State.reset := rfl
  exact hreset ▸ State.resetSequence_inv (s := State.reset) rfl rfl

/-! ### The invariant over a step -/

/-- Settles O13: a step resets, starts an operation or resumes a held one, and each keeps the invariant. -/
theorem stepKeepsInv : Obligations.StepKeepsInv := by
  unfold Obligations.StepKeepsInv
  intro s t hinv h
  have hbegin : s.beginStep.Inv := hinv.beginStep
  obtain ⟨_, rfl⟩ | ⟨_, hs, hi⟩ | ⟨_, hk⟩ := step_cases h
  · exact State.resetSequence_inv hbegin.params_ok hbegin.nvm_length
  · exact hbegin.of_started (.of_exec hs hi)
  · exact hbegin.of_resumeHeld hk

end Sys2Proof.Machine
end

section
/-! PROOFS of the family 30_encoding: the id word and the frame (R70, R71), the Transport API command (R73), the host
line and its dispatch table (R74 to R78), the packed record (R72), the response filter (R82) and the flow-control frame
(R81). -/

namespace Sys2Proof

/-! ### Byte order -/

@[simp] theorem ofLe32_bytes (w : Word32) :
    ofLe32 (w.extractLsb' 0 8) (w.extractLsb' 8 8) (w.extractLsb' 16 8) (w.extractLsb' 24 8) = w := by
  unfold ofLe32
  ext i hi
  simp only [BitVec.getElem_append, BitVec.getElem_extractLsb']
  grind

/-- Bit by bit, each byte is the one that was put there. -/
theorem le32_ofLe32 (b0 b1 b2 b3 : Byte) : le32 (ofLe32 b0 b1 b2 b3) = [b0, b1, b2, b3] := by
  simp only [le32, ofLe32, List.cons.injEq, and_true]
  refine ⟨?_, ?_, ?_, ?_⟩ <;> ext i hi <;> simp <;> grind

/-! ### The id word and the frame (R70, R71) -/

/-- The three bits above the identifier, over the four pairs of flags (R71). -/
theorem flagBits : ∀ ext rtr : Bool,
    (BitVec.ofBool ext ++ BitVec.ofBool rtr ++ (0 : BitVec 1)).getLsbD 2 = ext ∧
      (BitVec.ofBool ext ++ BitVec.ofBool rtr ++ (0 : BitVec 1)).getLsbD 1 = rtr ∧
      (BitVec.ofBool ext ++ BitVec.ofBool rtr ++ (0 : BitVec 1)).getLsbD 0 = false := by decide

/-- The id word is the identifier under the three bits of its flags (R71). -/
theorem getLsbD_idWord (f : CanFrame) (k : Nat) :
    (idWord f).getLsbD k =
      if k < 29 then f.id.getLsbD k
      else (BitVec.ofBool f.ext ++ BitVec.ofBool f.rtr ++ (0 : BitVec 1)).getLsbD (k - 29) :=
  BitVec.getLsbD_append

theorem idWord_bit31 (f : CanFrame) : (idWord f).getLsbD 31 = f.ext :=
  (getLsbD_idWord f 31).trans (flagBits f.ext f.rtr).1

theorem idWord_bit30 (f : CanFrame) : (idWord f).getLsbD 30 = f.rtr :=
  (getLsbD_idWord f 30).trans (flagBits f.ext f.rtr).2.1

theorem idWord_bit29 (f : CanFrame) : (idWord f).getLsbD 29 = false :=
  (getLsbD_idWord f 29).trans (flagBits f.ext f.rtr).2.2

theorem idWord_low (f : CanFrame) : (idWord f).extractLsb' 0 29 = f.id := by
  ext k hk
  simp [getLsbD_idWord, hk]

/-- Bit 29 apart, a word is the id word of the frame whose identifier and flags it holds. -/
theorem eq_idWord {w : Word32} {f : CanFrame} (h29 : w.getLsbD 29 = false) (hext : w.getLsbD 31 = f.ext)
    (hrtr : w.getLsbD 30 = f.rtr) (hid : w.extractLsb' 0 29 = f.id) : w = idWord f := by
  have hlow : ∀ k, k < 29 → w.getLsbD k = f.id.getLsbD k := by
    intro k hk
    simp [← hid, hk]
  ext k hk
  rw [← BitVec.getLsbD_eq_getElem, ← BitVec.getLsbD_eq_getElem]
  obtain hk | rfl | rfl | rfl : k < 29 ∨ k = 29 ∨ k = 30 ∨ k = 31 := by omega
  · simp [getLsbD_idWord, hlow, hk]
  · rw [h29, idWord_bit29]
  · rw [hrtr, idWord_bit30]
  · rw [hext, idWord_bit31]

theorem idWord_mask (f : CanFrame) : idWord f &&& 0x1FFFFFFF = f.id.setWidth 32 := by
  have hlow : f.id.toNat = (idWord f).toNat % 2 ^ 29 := by
    conv_lhs => rw [← idWord_low f]
    simp
  have hfits : f.id.toNat % 2 ^ 32 = f.id.toNat := Nat.mod_eq_of_lt (by omega)
  apply BitVec.eq_of_toNat_eq
  rw [BitVec.toNat_and, BitVec.toNat_setWidth, hfits, hlow]
  exact Nat.and_two_pow_sub_one_eq_mod _ 29

theorem frameOf_eq_ok {w : Word32} {dlc : Byte} {data : Payload} {f : CanFrame} :
    frameOf w dlc data = .ok f ↔ w = idWord f ∧ dlc = BitVec.ofNat 8 f.dlc.val ∧ data = f.data := by
  unfold frameOf
  constructor
  · intro h
    split at h
    · cases h
    · next h29 =>
      split at h
      · next hdlc =>
        cases h
        exact ⟨eq_idWord (by simpa using h29) rfl rfl rfl, by simp, rfl⟩
      · cases h
  · rintro ⟨rfl, rfl, rfl⟩
    have hdlc : f.dlc.val % 256 = f.dlc.val := Nat.mod_eq_of_lt (by omega)
    simp only [idWord_bit29, idWord_bit30, idWord_bit31, idWord_low, BitVec.toNat_ofNat, hdlc, f.dlc.isLt,
      Bool.false_eq_true, if_false, dite_true]

/-- Settles O7: one lemma for each field of the id word, and the frame read back from them. -/
theorem idWordLayout : Obligations.IdWordLayout := by
  unfold Obligations.IdWordLayout
  intro f
  exact ⟨idWord_bit31 f, idWord_bit30 f, idWord_bit29 f, idWord_mask f, frameOf_eq_ok.2 ⟨rfl, rfl, rfl⟩⟩

/-! ### The operands of a Transport API command (R73): each is read exactly where its bytes stand -/

theorem decodeArg_eq_ok {bs rest : Bytes} {w : Word32} :
    decodeArg bs = .ok (w, rest) ↔ bs = le32 w ++ rest := by
  constructor
  · intro h
    unfold decodeArg at h
    split at h
    · cases h
      rw [le32_ofLe32]
      rfl
    · cases h
  · rintro rfl
    simp [le32, decodeArg]

theorem decodeFrameOperand_eq_ok {bs rest : Bytes} {f : CanFrame} :
    decodeFrameOperand bs = .ok (f, rest) ↔ bs = encodeFrame f ++ rest := by
  constructor
  · intro h
    unfold decodeFrameOperand at h
    split at h
    · split at h
      · next hf =>
        cases h
        obtain ⟨hw, rfl, hdata⟩ := frameOf_eq_ok.1 hf
        rw [encodeFrame, ← hw, ← hdata, le32_ofLe32]
        rfl
      · cases h
    · cases h
  · rintro rfl
    have hf : frameOf (idWord f) (BitVec.ofNat 8 f.dlc.val) f.data = .ok f := frameOf_eq_ok.2 ⟨rfl, rfl, rfl⟩
    simp only [encodeFrame, le32, Payload.toList, List.cons_append, List.nil_append, decodeFrameOperand,
      ofLe32_bytes, hf]

theorem flagOfWord_eq_ok {w : Word32} {on : Bool} : flagOfWord w = .ok on ↔ w = if on then 1 else 0 := by
  unfold flagOfWord
  by_cases h0 : w = 0 <;> by_cases h1 : w = 1 <;> cases on <;> simp_all

theorem byteOfWord_eq_ok {w : Word32} {b : Byte} : byteOfWord w = .ok b ↔ w = b.setWidth 32 := by
  unfold byteOfWord
  constructor
  · intro h
    split at h
    · next hw =>
      cases h
      exact BitVec.eq_of_toNat_eq (by simp; omega)
    · cases h
  · rintro rfl
    have hb : (b.setWidth 32).toNat < 256 := by
      rw [BitVec.toNat_setWidth]
      omega
    rw [if_pos hb]
    simp

section
variable {bs rest : Bytes} {i : Instr}

theorem busOnly_eq_ok {mk : BusIx → Instr} :
    busOnly mk bs = .ok (i, rest) ↔ ∃ b, i = mk b ∧ bs = b :: rest := by
  cases bs with
  | nil => simp [busOnly]
  | cons b bs => simp [busOnly, eq_comm]

theorem busArg_eq_ok {mk : BusIx → Word32 → Except DecodeError Instr} :
    busArg mk bs = .ok (i, rest) ↔ ∃ b w, mk b w = .ok i ∧ bs = b :: (le32 w ++ rest) := by
  constructor
  · intro h
    cases bs with
    | nil => cases h
    | cons b bs =>
      simp only [busArg] at h
      split at h
      · next w rest' harg =>
        split at h
        · next hmk =>
          cases h
          exact ⟨b, w, hmk, by rw [decodeArg_eq_ok.1 harg]⟩
        · cases h
      · cases h
  · rintro ⟨b, w, hmk, rfl⟩
    simp only [busArg, decodeArg_eq_ok.2 rfl, hmk]

theorem busFrame_eq_ok {mk : BusIx → CanFrame → Instr} :
    busFrame mk bs = .ok (i, rest) ↔ ∃ b f, i = mk b f ∧ bs = b :: (encodeFrame f ++ rest) := by
  constructor
  · intro h
    cases bs with
    | nil => cases h
    | cons b bs =>
      simp only [busFrame] at h
      split at h
      · next f rest' hf =>
        cases h
        exact ⟨b, f, rfl, by rw [decodeFrameOperand_eq_ok.1 hf]⟩
      · cases h
  · rintro ⟨b, f, rfl, rfl⟩
    simp only [busFrame, decodeFrameOperand_eq_ok.2 rfl]

/-- An argument read as another type: the word is one the reader accepts. -/
theorem map_eq_ok {α : Type} {x : Except DecodeError α} {mk : α → Instr} :
    x.map mk = .ok i ↔ ∃ a, x = .ok a ∧ i = mk a := by
  cases x <;> simp [Except.map, eq_comm]

/-! ### The Transport API command (R73) -/

/-- Row by row of R73, `h_1` being code 0x00: the operands read are those the encoder writes behind the same
code. -/
theorem encode_of_decodeOperands {op : Nat} {code : Byte} (h : decodeOperands op code bs = .ok (i, rest)) :
    ∃ operands, encode i = apiWords (BitVec.ofNat 8 op) operands ∧ bs = operands ++ rest := by
  unfold decodeOperands at h
  split at h
  case h_1 | h_3 =>
    obtain ⟨b, w, hi, rfl⟩ := busArg_eq_ok.1 h
    cases hi
    exact ⟨b :: le32 w, rfl, rfl⟩
  case h_2 | h_5 | h_6 | h_7 | h_9 | h_10 | h_11 | h_12 | h_13 | h_16 =>
    obtain ⟨b, rfl, rfl⟩ := busOnly_eq_ok.1 h
    exact ⟨[b], rfl, rfl⟩
  case h_4 =>
    obtain ⟨b, w, hi, rfl⟩ := busArg_eq_ok.1 h
    obtain ⟨on, hflag, rfl⟩ := map_eq_ok.1 hi
    exact ⟨b :: le32 w, by rw [flagOfWord_eq_ok.1 hflag]; rfl, rfl⟩
  case h_8 | h_18 =>
    obtain ⟨b, f, rfl, rfl⟩ := busFrame_eq_ok.1 h
    exact ⟨b :: encodeFrame f, rfl, rfl⟩
  case h_14 =>
    cases h
    exact ⟨[], rfl, rfl⟩
  case h_15 =>
    split at h
    · next w rest' harg =>
      split at h
      · next n hn =>
        cases h
        exact ⟨le32 w, by rw [byteOfWord_eq_ok.1 hn]; rfl, decodeArg_eq_ok.1 harg⟩
      · cases h
    · cases h
  case h_17 =>
    obtain ⟨b, w, hi, rfl⟩ := busArg_eq_ok.1 h
    obtain ⟨b₂, hb₂, rfl⟩ := map_eq_ok.1 hi
    exact ⟨b :: le32 w, by rw [byteOfWord_eq_ok.1 hb₂]; rfl, rfl⟩
  case h_19 => cases h

theorem decode_api_of_encode {ws : Bytes} (h : encode i = some (.api, ws)) (rest : Bytes) :
    decode .api (ws ++ rest) = .ok (i, rest) := by
  cases i with
  | enable b w =>
    cases h
    exact (busArg_eq_ok (mk := fun b w => .ok (.enable b w))).2 ⟨b, w, rfl, rfl⟩
  | setBitrate b w =>
    cases h
    exact (busArg_eq_ok (mk := fun b w => .ok (.setBitrate b w))).2 ⟨b, w, rfl, rfl⟩
  | setListenOnly b on =>
    cases h
    exact (busArg_eq_ok (mk := fun b w => (flagOfWord w).map (.setListenOnly b))).2
      ⟨b, _, map_eq_ok.2 ⟨on, flagOfWord_eq_ok.2 rfl, rfl⟩, rfl⟩
  | setBridge b₁ b₂ =>
    cases h
    exact (busArg_eq_ok (mk := fun b w => (byteOfWord w).map (.setBridge b))).2
      ⟨b₁, _, map_eq_ok.2 ⟨b₂, byteOfWord_eq_ok.2 rfl, rfl⟩, rfl⟩
  | disable b | isEnabled b | getBitrate b | isListenOnly b | receive b | getRxBufferedFrames b
  | getTxBufferedFrames b | getRxOverflowCount b | getTxOverflowCount b | getStatistics b =>
    cases h
    exact busOnly_eq_ok.2 ⟨b, rfl, rfl⟩
  | send b f | handleBridge b f =>
    cases h
    exact busFrame_eq_ok.2 ⟨b, f, rfl, rfl⟩
  | getNumBusses =>
    cases h
    rfl
  | setNumBusses n =>
    cases h
    simp only [argOfByte, List.cons_append, decode, decodeApi, BitVec.reduceToNat, decodeOperands,
      decodeArg_eq_ok.2 rfl, byteOfWord_eq_ok.2 rfl]
  | _ => cases h

/-- What decodes on port `API` is exactly an encoding and the bytes left over (R73). -/
theorem decode_api_eq_ok :
    decode .api bs = .ok (i, rest) ↔ ∃ ws, encode i = some (.api, ws) ∧ ws ++ rest = bs := by
  constructor
  · intro h
    cases bs with
    | nil => cases h
    | cons op operands =>
      obtain ⟨ws, hi, rfl⟩ := encode_of_decodeOperands (bs := operands) h
      rw [BitVec.ofNat_toNat, BitVec.setWidth_eq] at hi
      exact ⟨op :: ws, hi, rfl⟩
  · rintro ⟨ws, hi, rfl⟩
    exact decode_api_of_encode hi rest

end

/-- Settles O1: the way from the encoding to the decoder's answer. -/
theorem apiCommandsRoundTrip : Obligations.ApiCommandsRoundTrip := by
  unfold Obligations.ApiCommandsRoundTrip
  intro i bs rest h
  exact decode_api_eq_ok.2 ⟨bs, h, rfl⟩

/-- Settles O3: the way from the decoder's answer to the encoding. -/
theorem apiBytesHaveOneCommand : Obligations.ApiBytesHaveOneCommand := by
  unfold Obligations.ApiBytesHaveOneCommand
  intro bs rest i
  exact decode_api_eq_ok.1

/-! ### Reserved and illegal inputs (R85; U1, U2, U3) -/

theorem decodeOperands_reserved {op : Nat} (h : 0x11 < op) (code : Byte) (rest : Bytes) :
    decodeOperands op code rest = .error (.reservedCode code) := by
  obtain ⟨n, rfl⟩ : ∃ n, op = n + 0x12 := ⟨op - 0x12, by omega⟩
  rfl

theorem frameOf_reservedIdBit {w : Word32} (h : w.getLsbD 29 = true) (dlc : Byte) (data : Payload) :
    frameOf w dlc data = .error .reservedIdBit := by
  rw [frameOf, if_pos h]

theorem frameOf_dlcAboveEight {w : Word32} {dlc : Byte} (h : w.getLsbD 29 = false) (hdlc : 8 < dlc.toNat)
    (data : Payload) : frameOf w dlc data = .error .dlcAboveEight := by
  rw [frameOf, h, if_neg Bool.false_ne_true, dif_neg (by omega)]

/-! ### Upper case and terminators (R8, R74) -/

/-- A lower-case letter loses 0x20, any other byte stays. -/
theorem upperByte_cases (c : Byte) :
    (0x61 ≤ c.toNat ∧ c.toNat ≤ 0x7A ∧ (upperByte c).toNat = c.toNat - 0x20) ∨ upperByte c = c := by
  unfold upperByte
  split
  · next h =>
    simp only [Bool.and_eq_true, decide_eq_true_eq] at h
    have hle : (0x20 : Byte) ≤ c := by
      rw [BitVec.le_def]
      exact le_trans (by decide) h.1
    exact .inl ⟨h.1, h.2, BitVec.toNat_sub_of_le hle⟩
  · exact .inr rfl

theorem upperByte_of_lt {c : Byte} (h : c.toNat < 0x61) : upperByte c = c := by
  obtain ⟨hc, _⟩ | h := upperByte_cases c
  · omega
  · exact h

theorem upperByte_upperByte (c : Byte) : upperByte (upperByte c) = upperByte c := by
  obtain ⟨_, _, hc⟩ | hc := upperByte_cases c
  · exact upperByte_of_lt (by omega)
  · rw [hc, hc]

theorem upper_upper (s : Bytes) : upper (upper s) = upper s := by
  simp [upper, upperByte_upperByte]

theorem isTerminator_of_gt {c : Byte} (h : 0x0D < c.toNat) : isTerminator c = false := by
  simp only [isTerminator, Bool.or_eq_false_iff, beq_eq_false_iff_ne]
  constructor <;> rintro rfl <;> simp at h

theorem isTerminator_upperByte (c : Byte) : isTerminator (upperByte c) = isTerminator c := by
  obtain ⟨_, _, hc⟩ | hc := upperByte_cases c
  · rw [isTerminator_of_gt (c := c) (by omega), isTerminator_of_gt (by omega)]
  · rw [hc]

@[simp] theorem lineOk_upper (s : Bytes) : lineOk (upper s) = lineOk s := by
  simp [lineOk, upper, List.all_map, Function.comp_def, isTerminator_upperByte]

@[simp] theorem upper_eq_nil {s : Bytes} : upper s = [] ↔ s = [] := by simp [upper]

theorem upper_append (s t : Bytes) : upper (s ++ t) = upper s ++ upper t := by simp [upper]

/-! ### How a line begins, and where it ends (R74, R76) -/

theorem stripPrefix_eq_some {p u rest : Bytes} : stripPrefix p u = some rest ↔ u = p ++ rest := by
  induction p generalizing u with
  | nil => simp [stripPrefix]
  | cons a p ih =>
    cases u with
    | nil => simp [stripPrefix]
    | cons b u =>
      by_cases hab : a = b
      · simp [stripPrefix, hab, ih]
      · simp [stripPrefix, hab, Ne.symm hab]

theorem stripPrefix_eq_none {p u : Bytes} : stripPrefix p u = none ↔ ¬ p <+: u := by
  rw [Option.eq_none_iff_forall_ne_some]
  simp only [ne_eq, stripPrefix_eq_some]
  exact ⟨fun h ⟨r, hr⟩ => h r hr.symm, fun h r hr => h ⟨r, hr.symm⟩⟩

theorem lineOk_cons {c : Byte} {s : Bytes} : lineOk (c :: s) = true ↔ isTerminator c = false ∧ lineOk s = true := by
  simp [lineOk]

/-- The line is everything before the first terminator. -/
theorem splitLine_eq_some {bs line rest : Bytes} :
    splitLine bs = some (line, rest) ↔
      lineOk line = true ∧ ∃ c, isTerminator c = true ∧ bs = line ++ c :: rest := by
  induction bs generalizing line with
  | nil => simp [splitLine]
  | cons b bs ih =>
    rw [splitLine]
    split
    · next hb =>
      constructor
      · intro h
        cases h
        exact ⟨rfl, b, hb, rfl⟩
      · rintro ⟨hline, c, hc, h⟩
        cases line with
        | nil =>
          cases h
          rfl
        | cons d line =>
          cases h
          rw [(lineOk_cons.1 hline).1] at hb
          cases hb
    · next hb =>
      rw [Option.map_eq_some_iff]
      constructor
      · rintro ⟨⟨l, r⟩, h, he⟩
        cases he
        obtain ⟨hl, c, hc, rfl⟩ := ih.1 h
        exact ⟨lineOk_cons.2 ⟨Bool.eq_false_iff.2 hb, hl⟩, c, hc, rfl⟩
      · rintro ⟨hline, c, hc, h⟩
        cases line with
        | nil =>
          cases h
          exact absurd hc hb
        | cons d line =>
          cases h
          exact ⟨(line, rest), ih.2 ⟨(lineOk_cons.1 hline).2, c, hc, rfl⟩, rfl⟩

theorem decode_hostIn_line {line : Bytes} {c : Byte} (hline : lineOk line = true) (hc : isTerminator c = true)
    (rest : Bytes) : decode .hostIn (line ++ c :: rest) = .ok (decodeLine line, rest) := by
  simp only [decode, splitLine_eq_some.2 ⟨hline, c, hc, rfl⟩]

/-! ### What a line is classified as (R75) -/

theorem classify_upper (s : Bytes) : classify (upper s) = classify s := by simp only [classify, upper_upper]

/-- A line command carries no text of its own, or the text `u`. -/
def LineCmd.CarriesOnly (u : Bytes) : LineCmd → Prop
  | .unknownAt v | .malformedAt v | .invalidLine v => v = u
  | _ => True

/-- A row's argument is never one of the three bad lines. -/
theorem parseArg_carriesOnly (u : Bytes) {row : AtRow} {rest : Bytes} {c : LineCmd} (h : parseArg row rest = some c) :
    c.CarriesOnly u := by
  cases row
  case atsh =>
    simp only [parseArg] at h
    split at h
    · split at h <;> cases h
      trivial
    · cases h
  case atsp | atat | atst | atma | ate | atm | atl | ats | ath | atd =>
    obtain ⟨_, _, rfl⟩ := Option.map_eq_some_iff.1 h
    trivial
  all_goals
    cases h
    trivial

theorem decodeAt_carriesOnly (u : Bytes) : (decodeAt u).CarriesOnly u := by
  unfold decodeAt
  split
  · rfl
  · next row rest _ =>
    cases h : parseArg row rest with
    | none => rfl
    | some c => exact parseArg_carriesOnly u h

theorem decodePid_carriesOnly (u : Bytes) : (decodePid u).CarriesOnly u := by
  unfold decodePid
  split <;> trivial

theorem classify_carriesOnly (s : Bytes) : (classify s).CarriesOnly (upper s) := by
  simp only [classify]
  split
  · exact decodeAt_carriesOnly _
  · split
    · exact decodePid_carriesOnly _
    · rfl

theorem classify_wf {s : Bytes} (hs : lineOk s = true) (hne : s ≠ []) : (classify s).wf = true := by
  have hcarries := classify_carriesOnly s
  have hupper := classify_upper s
  cases h : classify s <;> rw [h] at hcarries hupper
  case unknownAt | malformedAt | invalidLine =>
    cases hcarries
    simp [LineCmd.wf, hs, hne, hupper]
  all_goals rfl

theorem wf_toInstr (c : LineCmd) : c.toInstr.wf = c.wf := by cases c <;> rfl

theorem encode_toInstr (c : LineCmd) : encode c.toInstr = hostWords c := by cases c <;> rfl

theorem decodeLine_of_ne_nil {s : Bytes} (h : s ≠ []) : decodeLine s = (classify s).toInstr := by
  simp [decodeLine, h]

theorem decodeLine_wf {s : Bytes} (hs : lineOk s = true) :
    (decodeLine s).wf = true ∧ (decodeLine s).isEncoded = true := by
  by_cases hne : s = []
  · subst hne
    exact ⟨rfl, rfl⟩
  · rw [decodeLine_of_ne_nil hne, wf_toInstr, Instr.isEncoded, encode_toInstr]
    exact ⟨classify_wf hs hne, rfl⟩

/-- Settles O4: the three lines that carry their own text carry it in upper case, so they classify as themselves. -/
theorem hostLinesDecodeWellFormed : Obligations.HostLinesDecodeWellFormed := by
  unfold Obligations.HostLinesDecodeWellFormed
  refine ⟨?_, classify_upper, fun line rest c hline hc => decode_hostIn_line hline hc rest⟩
  intro bs rest i h
  simp only [decode] at h
  split at h
  · next line rest' hsplit =>
    cases h
    exact decodeLine_wf (splitLine_eq_some.1 hsplit).1
  · cases h

/-! ### Every command is what its own line is classified as (R76 to R78) -/

open Laws (lineOk_append lineOk_hexN)

theorem classify_at {u r rest : Bytes} {row : AtRow} {c : LineCmd} (hu : upper u = u)
    (hat : stripPrefix atStart u = some r) (hrow : findRow atTable u = some (row, rest))
    (harg : parseArg row rest = some c) : classify u = c := by
  simp only [classify, hu, hat, decodeAt, hrow, harg, Option.getD_some]

/-- Upper-case hexadecimal text. -/
def HexText (u : Bytes) : Prop := upper u = u ∧ u.all isHex = true

theorem HexText.hexN (n v : Nat) : HexText (hexN n v) := ⟨upper_hexN n v, hexN_all_isHex n v⟩

theorem HexText.append {u v : Bytes} (hu : HexText u) (hv : HexText v) : HexText (u ++ v) :=
  ⟨by rw [upper_append, hu.1, hv.1], by rw [List.all_append, hu.2, hv.2, Bool.and_self]⟩

/-- `T` is no hexadecimal digit. -/
theorem stripPrefix_atStart_of_hex {u : Bytes} (h : u.all isHex = true) : stripPrefix atStart u = none := by
  rw [stripPrefix_eq_none]
  rintro ⟨r, rfl⟩
  cases h

theorem classify_hex {u : Bytes} (h : HexText u) : classify u = decodePid u := by
  obtain ⟨hupper, hhex⟩ := h
  simp only [classify, hupper, stripPrefix_atStart_of_hex hhex, hhex, if_true]

theorem ofNat_hexval_hexN {w n : Nat} (h : 2 ^ w ≤ 16 ^ n) (v : BitVec w) :
    BitVec.ofNat w (hexval (hexN n v.toNat)) = v := by
  rw [hexval_hexN (v.isLt.trans_le h), BitVec.ofNat_toNat, BitVec.setWidth_eq]

theorem hexArg_hexN {lo hi n v : Nat} (hlo : lo ≤ n) (hhi : n ≤ hi) (hv : v < 16 ^ n) :
    hexArg lo hi (hexN n v) = some v := by
  simp [hexArg, hlo, hhi, hexN_all_isHex, hexval_hexN hv, -List.all_eq_true]

/-- An AT row by its first bytes and its argument, the PID shapes by their length, the three kinds of bad line by
`wf`. -/
theorem classify_encodeLine {c : LineCmd} (h : c.wf = true) : classify (encodeLine c) = c := by
  have hnibble : ∀ v : BitVec 4, BitVec.ofNat 4 (hexval (hexN 1 v.toNat)) = v := ofNat_hexval_hexN (by decide)
  have hbyte : ∀ v : Byte, BitVec.ofNat 8 (hexval (hexN 2 v.toNat)) = v := ofNat_hexval_hexN (by decide)
  have hword : ∀ v : BitVec 16, BitVec.ofNat 16 (hexval (hexN 4 v.toNat)) = v := ofNat_hexval_hexN (by decide)
  cases c with
  | atdesc | atpc | atrv | at1 | atz | ati => rfl
  | atsp d => cases d <;> rfl
  | atat on | atma on | ate on | atm on | atl on | ats on | ath on | atd on | atdp on => cases on <;> rfl
  | atst hh =>
    have hv : hexArg 1 2 (hexN 2 hh.toNat) = some hh.toNat := hexArg_hexN (by decide) (by decide) hh.isLt
    have harg : parseArg .atst (hexN 2 hh.toNat) = some (.atst hh) := by simp [parseArg, hv]
    exact classify_at (by rw [encodeLine, upper_append, upper_hexN]; rfl) rfl rfl harg
  | atsh id =>
    have hid : id.toNat ≤ 0x1FFFFFFF := Nat.le_of_lt_succ id.isLt
    have hv : hexArg 1 8 (hexN 8 id.toNat) = some id.toNat := hexArg_hexN (by decide) (by decide) (by omega)
    have harg : parseArg .atsh (hexN 8 id.toNat) = some (.atsh id) := by simp [parseArg, hv, hid]
    exact classify_at (by rw [encodeLine, upper_append, upper_hexN]; rfl) rfl rfl harg
  | pid4 mode pid =>
    have htext : HexText (encodeLine (.pid4 mode pid)) := .append (.hexN 2 _) (.hexN 2 _)
    exact (classify_hex htext).trans (congrArg₂ LineCmd.pid4 (hbyte mode) (hbyte pid))
  | pid5 mode pid expected =>
    have htext : HexText (encodeLine (.pid5 mode pid expected)) := .append (.append (.hexN 2 _) (.hexN 2 _)) (.hexN 1 _)
    exact (classify_hex htext).trans (congr (congrArg₂ LineCmd.pid5 (hbyte mode) (hbyte pid)) (hnibble expected))
  | pid6 mode pid =>
    have htext : HexText (encodeLine (.pid6 mode pid)) := .append (.hexN 2 _) (.hexN 4 _)
    exact (classify_hex htext).trans (congrArg₂ LineCmd.pid6 (hbyte mode) (hword pid))
  | pid7 mode pid expected =>
    have htext : HexText (encodeLine (.pid7 mode pid expected)) := .append (.append (.hexN 2 _) (.hexN 4 _)) (.hexN 1 _)
    exact (classify_hex htext).trans (congr (congrArg₂ LineCmd.pid7 (hbyte mode) (hword pid)) (hnibble expected))
  | unknownAt u | malformedAt u | invalidLine u =>
    simp only [LineCmd.wf, Bool.and_eq_true, beq_iff_eq] at h
    exact h.2

theorem encodeLine_ne_nil {c : LineCmd} (h : c.wf = true) : encodeLine c ≠ [] := by
  intro hnil
  have hc : .invalidLine [] = c := by rw [← classify_encodeLine h, hnil]; rfl
  subst hc
  cases h

theorem lineOk_encodeLine {c : LineCmd} (h : c.wf = true) : lineOk (encodeLine c) = true := by
  cases c with
  | atdesc | atpc | atrv | at1 | atz | ati => rfl
  | atsp d => cases d <;> rfl
  | atat on | atma on | ate on | atm on | atl on | ats on | ath on | atd on | atdp on => cases on <;> rfl
  | atst _ | atsh _ | pid4 _ _ | pid5 _ _ _ | pid6 _ _ | pid7 _ _ _ =>
    simp only [encodeLine, lineOk_append, lineOk_hexN]
    rfl
  | unknownAt u | malformedAt u | invalidLine u =>
    simp only [LineCmd.wf, Bool.and_eq_true] at h
    exact h.1.1

theorem lineCommand_of_hostWords {c : LineCmd} {bs : Bytes} (h : hostWords c = some (.hostIn, bs)) :
    ∃ d : LineCmd, c.toInstr = d.toInstr ∧ bs = encodeLine d ++ [0x0D] := by
  cases h
  exact ⟨c, rfl, rfl⟩

/-- The instructions on port `HOST_IN` are the repeat form and the line commands (R75, R86). -/
theorem encode_hostIn {i : Instr} {bs : Bytes} (h : encode i = some (.hostIn, bs)) :
    (i = .repeatLine ∧ bs = [0x0D]) ∨ ∃ c : LineCmd, i = c.toInstr ∧ bs = encodeLine c ++ [0x0D] := by
  cases i with
  | repeatLine =>
    cases h
    exact .inl ⟨rfl, rfl⟩
  | atdesc | atsp | atat | atst | atdp | atpc | atrv | at1 | atsh | atma | ate | atm | atl | ats | ath | atd | atz
  | ati | pid4 | pid5 | pid6 | pid7 | unknownAt | malformedAt | invalidLine => exact .inr (lineCommand_of_hostWords h)
  | _ => cases h

/-- Settles O2: the line ends at its CR, and is classified as the command that spelt it. -/
theorem hostLinesRoundTrip : Obligations.HostLinesRoundTrip := by
  unfold Obligations.HostLinesRoundTrip
  intro i bs rest hwf h
  obtain ⟨rfl, rfl⟩ | ⟨c, rfl, rfl⟩ := encode_hostIn h
  · rfl
  · rw [wf_toInstr] at hwf
    rw [List.append_assoc, List.singleton_append, decode_hostIn_line (lineOk_encodeLine hwf) rfl,
      decodeLine_of_ne_nil (encodeLine_ne_nil hwf), classify_encodeLine hwf]

/-! ### The dispatch table (R76) -/

theorem findRow_eq_none {table : List (AtRow × Bytes)} {u : Bytes} :
    findRow table u = none ↔ ∀ q ∈ table, ¬ q.2 <+: u := by
  induction table with
  | nil => simp [findRow]
  | cons q table ih =>
    rw [findRow, List.forall_mem_cons, ← ih, ← stripPrefix_eq_none]
    cases stripPrefix q.2 u <;> simp

/-- In a table whose rows do not get longer, the first row that begins the line is the longest that does. -/
theorem findRow_longest {table : List (AtRow × Bytes)} {u rest : Bytes} {row : AtRow}
    (hsorted : table.Pairwise fun q r => r.2.length ≤ q.2.length) (h : findRow table u = some (row, rest)) :
    ∃ p, (row, p) ∈ table ∧ u = p ++ rest ∧ ∀ q ∈ table, q.2 <+: u → q.2.length ≤ p.length := by
  induction table with
  | nil => cases h
  | cons q table ih =>
    obtain ⟨hhead, htail⟩ := List.pairwise_cons.1 hsorted
    rw [findRow] at h
    split at h
    · next hstrip =>
      cases h
      exact ⟨q.2, List.mem_cons_self, stripPrefix_eq_some.1 hstrip,
        List.forall_mem_cons.2 ⟨fun _ => le_rfl, fun r hr _ => hhead r hr⟩⟩
    · next hstrip =>
      obtain ⟨p, hmem, hu, hlong⟩ := ih htail h
      exact ⟨p, List.mem_cons_of_mem q hmem, hu,
        List.forall_mem_cons.2 ⟨fun hq => absurd hq (stripPrefix_eq_none.1 hstrip), hlong⟩⟩

/-! ### The argument forms (R77) -/

theorem flagArg_eq (rest : Bytes) :
    flagArg rest =
      if rest.head? = some 0x31 then some true else if rest.head? = some 0x30 then some false else none := by
  cases rest <;> simp [flagArg]

theorem protocolArg_eq (rest : Bytes) :
    protocolArg rest =
      if rest.head? = some 0x36 then some .p6
      else if rest.head? = some 0x37 then some .p7
      else if rest.head? = some 0x38 then some .p8
      else if rest.head? = some 0x39 then some .p9
      else none := by
  cases rest <;> simp [protocolArg]

theorem hexArg_eq (lo hi : Nat) (rest : Bytes) :
    hexArg lo hi rest =
      if lo ≤ rest.length ∧ rest.length ≤ hi ∧ ∀ c ∈ rest, isHex c = true then some (hexval rest) else none := by
  simp only [hexArg, Bool.and_eq_true, decide_eq_true_eq, List.all_eq_true, and_assoc]

/-- Settles O9: the table's rows do not get longer, so the first match is the longest one; the argument forms are those
of the three readers. -/
theorem longestTableRowWins : Obligations.LongestTableRowWins := by
  unfold Obligations.LongestTableRowWins
  refine ⟨by decide, fun u rest row => findRow_longest (by decide), fun u h => ⟨findRow_eq_none.1 h, ?unknown⟩,
    fun u rest row h => ?row, fun rest => ⟨?flag, ?atsp, ?atst, ?atsh, ?atdp, ?plain⟩⟩
  case unknown | row => simp only [decodeAt, h]
  case flag => simp [parseArg, flagArg_eq, apply_ite (Option.map _)]
  case atsp =>
    simp only [parseArg, protocolArg_eq, apply_ite (Option.map _), Option.map_some, Option.map_none]
  case atst =>
    simp only [parseArg, hexArg_eq, apply_ite (Option.map _), Option.map_some, Option.map_none]
  case atsh =>
    -- the test of the form and the test of the value, one after the other, are their conjunction
    simp only [parseArg, hexArg_eq]
    grind
  case atdp => simp only [parseArg, beq_eq_decide]
  case plain => simp [parseArg]

/-! ### Words written by hand (R73, R76, R78) -/

/-- Settles O6: eight closed inputs, evaluated. -/
theorem handWrittenWordsDecode : Obligations.HandWrittenWordsDecode := by
  unfold Obligations.HandWrittenWordsDecode
  decide

end Sys2Proof

namespace Sys2Proof.Machine

variable {s : State}

/-! ### An undecodable command (R85) -/

theorem fetch_api_error {bs : Bytes} {e : DecodeError} (h : decode .api bs = .error e) (s : State) :
    fetch (.api bs) s = .refuse (.undecodable e) := by
  simp [fetch, h]

/-- Settles O5: each refusal by the test that makes it, and the step by what `fetch` answers. -/
theorem reservedApiInputsRefused : Obligations.ReservedApiInputsRefused := by
  unfold Obligations.ReservedApiInputsRefused
  refine ⟨fun op rest h => decodeOperands_reserved h op rest, fun w dlc data h => frameOf_reservedIdBit h dlc data,
    fun w dlc data h hdlc => frameOf_dlcAboveEight h hdlc data, fun s bs e ha he => ?_⟩
  rw [step, ha, fetch_api_error he]

/-! ### The packed record (R72) -/

theorem byteBool_boolByte (v : Bool) : byteBool (boolByte v) = some v := by cases v <;> rfl

theorem length_packConfig (c : BusConfig) : (packConfig c).length = 6 := rfl

theorem unpackConfigs_packConfig (n : Nat) (c : BusConfig) (rest : Bytes) :
    unpackConfigs (n + 1) (packConfig c ++ rest) = (unpackConfigs n rest).map (c :: ·) := by
  simp only [packConfig, le32, List.cons_append, List.nil_append, unpackConfigs, byteBool_boolByte, ofLe32_bytes]
  cases unpackConfigs n rest <;> rfl

theorem unpackConfigs_flatMap (cs : List BusConfig) : unpackConfigs cs.length (cs.flatMap packConfig) = some cs := by
  induction cs with
  | nil => rfl
  | cons c cs ih => rw [List.flatMap_cons, List.length_cons, unpackConfigs_packConfig, ih, Option.map_some]

theorem length_flatMap_packConfig (cs : List BusConfig) : (cs.flatMap packConfig).length = 6 * cs.length := by
  induction cs with
  | nil => rfl
  | cons c cs ih => rw [List.flatMap_cons, List.length_append, ih, length_packConfig, List.length_cons]; omega

/-- Settles O10: induction over the configurations, six bytes each. -/
theorem nvmBytesRoundTrip : Obligations.NvmBytesRoundTrip := by
  unfold Obligations.NvmBytesRoundTrip
  intro r
  constructor
  · rw [packRecord, List.length_cons, length_flatMap_packConfig, Nat.add_comm]
  · rw [packRecord, unpackRecord, unpackConfigs_flatMap, Option.map_some]

/-! ### The response filter (R82, R240) -/

/-- The two response ranges, both bounds inclusive (R82). -/
theorem inRespRange_eq_true {id : BitVec 29} {extended : Bool} {lo hi : Nat}
    (hlo : lo = if extended then 0x18DAF100 else 0x7E8) (hhi : hi = if extended then 0x18DAF1FF else 0x7EF) :
    inRespRange id extended = true ↔ lo ≤ id.toNat ∧ id.toNat ≤ hi := by
  subst hlo hhi
  cases extended <;> simp [inRespRange]

section
variable {f : CanFrame}

theorem exec_handleCanFrame (f : CanFrame) (s : State) : exec (.handleCanFrame f) s = handleFrame .direct f s := rfl

theorem exec_processCanFrame (f : CanFrame) (s : State) :
    exec (.processCanFrame f) s = onElm s (processFrame .direct f s) := rfl

theorem exec_handleCanFrame_of_discarded (he : s.elmOk = true) (hm : s.sess.monitor = false)
    (hr : inRespRange f.id s.sess.extended = false) : exec (.handleCanFrame f) s = .next s := by
  simp [exec_handleCanFrame, handleFrame, he, hm, hr, State.frameDone]

/-- A frame the filter lets through: any frame in monitor mode, one of the response range outside it. -/
theorem exec_handleCanFrame_of_accepted (he : s.elmOk = true)
    (ha : s.sess.monitor = true ∨ inRespRange f.id s.sess.extended = true) :
    exec (.handleCanFrame f) s =
      if s.draws.lockOk then exec (.processCanFrame f) s else .next { s with log := s.log ++ [.lockTimeout] } := by
  have hfilter : (!s.sess.monitor && !inRespRange f.id s.sess.extended) = false := by
    obtain h | h := ha <;> simp [h]
  rw [exec_handleCanFrame, exec_processCanFrame, handleFrame, onElm_ok he, onElm_ok he, hfilter]
  cases s.draws.lockOk <;> rfl

/-- Where no flow control is due the text line is the first thing written; the bookkeeping can only add to it
(R241). -/
theorem exec_processCanFrame_line (he : s.elmOk = true) (hf : s.sess.monitor = true ∨ isFirstMarker f = false) :
    ∃ t more, exec (.processCanFrame f) s = .next t ∧
      t.hostOut = s.hostOut ++ formatFrame s.inst s.sess s.draws.wideId f ++ more := by
  have hflow : (isFirstMarker f && !s.sess.monitor) = false := by obtain h | h := hf <;> simp [h]
  obtain ⟨more, hmore⟩ := (Appends.book (s.emit (formatFrame s.inst s.sess s.draws.wideId f))).hostOut
  refine ⟨_, more, ?_, hmore.symm⟩
  rw [exec_processCanFrame, onElm_ok he, processFrame, hflow]
  rfl

end

/-- Settles O55: the range decides, then the lock, then the processing. -/
theorem responseFilter : Obligations.ResponseFilter := by
  unfold Obligations.ResponseFilter
  intro s f lo hi he hlo hhi
  have hrange := inRespRange_eq_true (id := f.id) hlo hhi
  refine ⟨fun hm hout => exec_handleCanFrame_of_discarded he hm ?_, fun hin => ?_⟩
  · rw [Bool.eq_false_iff, ne_eq, hrange]
    omega
  · have haccepted := exec_handleCanFrame_of_accepted he (hin.imp_right hrange.2)
    refine ⟨fun hl => by simp [haccepted, hl], fun hl => by simp [haccepted, hl], fun hl hf => ?_⟩
    rw [haccepted, if_pos hl]
    exact exec_processCanFrame_line he (hf.imp_right fun h => by simpa [isFirstMarker] using h)

/-! ### The flow-control frame (R81, R247) -/

theorem exec_sendFlowControl (f : CanFrame) (s : State) :
    exec (.sendFlowControl f) s =
      onElm s (sendThen s.inst.elmBus (flowFrame f.id s.sess.extended) .flow s) := rfl

theorem exec_sendFlowControl_of_results {f : CanFrame} {r : Int} {u : State} (he : s.elmOk = true)
    (ht : s.transportOk = true) (h : s.sendResults s.inst.elmBus (flowFrame f.id s.sess.extended) r u) :
    exec (.sendFlowControl f) s = .next u := by
  rw [exec_sendFlowControl, onElm_ok he, sendThen_of_results ht h, finishSend]

theorem exec_sendFlowControl_of_waits {f : CanFrame} (he : s.elmOk = true) (ht : s.transportOk = true)
    (hp : s.sendPasses s.inst.elmBus) (hw : s.sendWaits s.inst.elmBus) :
    exec (.sendFlowControl f) s =
      .next { s with held := s.held ++ [.send s.inst.elmBus (flowFrame f.id s.sess.extended) .flow] } := by
  rw [exec_sendFlowControl, onElm_ok he, sendThen_of_waits ht hp hw, holdSend]

/-- A bus that accepts a frame queues it at once (R131). -/
theorem sendResults_of_accepts {b : BusIx} (h : s.accepts b) (f : CanFrame) :
    s.sendResults b f 0 (s.setBus b { s.bus b with txq := (s.bus b).txq ++ [f] }) := by
  obtain ⟨hvalid, henabled, hlisten, hroom⟩ := h
  exact .inr (.inr (.inr ⟨⟨hvalid, henabled, hlisten⟩, .inl ⟨hroom, rfl, rfl⟩⟩))

/-- The eight standard responders, one by one (R81). -/
theorem flowTarget_standard {id : BitVec 29} (hlo : 0x7E8 ≤ id.toNat) (hhi : id.toNat ≤ 0x7EF) :
    (flowTarget id false).toNat = id.toNat - 8 := by
  have hx : (flowTarget id false).toNat = id.toNat ^^^ 8 := BitVec.toNat_xor ..
  generalize id.toNat = n at hlo hhi hx ⊢
  rw [hx]
  interval_cases n <;> rfl

theorem flowTarget_extended {id : BitVec 29} (hlo : 0x18DAF100 ≤ id.toNat) (hhi : id.toNat ≤ 0x18DAF1FF) :
    flowTarget id true = 0x18DAF1F0 := by
  have hmask : ~~~(0xFF : BitVec 29) = BitVec.allOnes 29 <<< 8 := by decide
  have hhigh : id >>> 8 = 0x18DAF1 := by
    apply BitVec.eq_of_toNat_eq
    rw [BitVec.toNat_ushiftRight, Nat.shiftRight_eq_div_pow]
    change id.toNat / 256 = 0x18DAF1
    omega
  calc flowTarget id true
    _ = (id &&& ~~~(0xFF : BitVec 29)) ||| 0xF0 := rfl
    _ = (id >>> 8 <<< 8) ||| 0xF0 := by rw [hmask, BitVec.shiftLeft_ushiftRight]
    _ = 0x18DAF1F0 := by rw [hhigh]; rfl

/-- Settles O57: the first clause is the second at a bus that accepts; the identifiers are computed. -/
theorem flowControlAnswersTheResponder : Obligations.FlowControlAnswersTheResponder := by
  unfold Obligations.FlowControlAnswersTheResponder
  refine ⟨?_, ?_, fun id => flowTarget_standard, fun id => flowTarget_extended⟩
  · rintro s f target he ht haccepts rfl
    exact exec_sendFlowControl_of_results he ht (sendResults_of_accepts haccepts _)
  · rintro s f fc r u he ht rfl
    exact ⟨exec_sendFlowControl_of_results he ht, exec_sendFlowControl_of_waits he ht⟩

end Sys2Proof.Machine
end

section
/-! PROOFS of the family 41_transport_config: the getters (R105 to R107, R134 to R138), the configuration operations
(R101 to R104), the bus count (R108, R109) and the persisted record (R110, R111). -/

namespace Sys2Proof.Machine

variable {s t : State} {b : BusIx}

/-! ### A valid and an invalid index (R100) -/

theorem State.validBus_eq_false_iff (s : State) (b : BusIx) : s.validBus b = false ↔ s.numBusses.toNat ≤ b.toNat := by
  rw [Bool.eq_false_iff, Ne, s.validBus_iff, Nat.not_lt]

theorem onValidBus_of_valid {r : Result} (ht : s.transportOk = true) (hb : b.toNat < s.numBusses.toNat)
    (hr : r = .next t) : onValidBus s b r = .next t :=
  onValidBus_next.2 ⟨ht, .inl ⟨(s.validBus_iff b).2 hb, hr⟩⟩

theorem onValidBus_of_invalid {r : Result} (ht : s.transportOk = true) (hb : s.numBusses.toNat ≤ b.toNat) :
    onValidBus s b r = .next { s with log := s.log ++ [.invalidBus b] } :=
  onValidBus_next.2 ⟨ht, .inr ⟨(s.validBus_eq_false_iff b).2 hb, rfl⟩⟩

/-! ### The getters (R105 to R107, R134 to R138) -/

theorem busGetter_answers (ht : s.transportOk = true) (b : BusIx) (bad good : Answer) :
    (b.toNat < s.numBusses.toNat → busGetter s b bad good = .next { s with answers := s.answers ++ [good] }) ∧
      (s.numBusses.toNat ≤ b.toNat →
        busGetter s b bad good =
          .next { s with log := s.log ++ [.invalidBus b], answers := s.answers ++ [bad] }) :=
  ⟨fun hb => busGetter_next.2 ⟨ht, .inl ⟨(s.validBus_iff b).2 hb, rfl⟩⟩,
    fun hb => busGetter_next.2 ⟨ht, .inr ⟨(s.validBus_eq_false_iff b).2 hb, rfl⟩⟩⟩

/-- Settles O27: each of the eight is `busGetter` with its own field and failure value. -/
theorem gettersReadTheBus : Obligations.GettersReadTheBus := by
  unfold Obligations.GettersReadTheBus
  intro s bus ht
  simp only [List.forall_mem_cons]
  exact ⟨busGetter_answers ht .., busGetter_answers ht .., busGetter_answers ht .., busGetter_answers ht ..,
    busGetter_answers ht .., busGetter_answers ht .., busGetter_answers ht .., busGetter_answers ht ..,
    List.forall_mem_nil _⟩

/-! ### `PERSIST` (R110) -/

theorem State.persist_eq (s : State) : s.persist = { s with nvm := s.persist.nvm, log := s.persist.log } := by
  obtain ⟨_, e⟩ | ⟨_, _, e⟩ | ⟨_, _, e⟩ := s.persist_cases <;> rw [e] <;> rfl

/-- What `PERSIST` leaves, from any state that agrees with `s` on the record, the log and the draws. -/
theorem PersistLeaves.persist (hn : t.nvm = s.nvm) (hl : t.log = s.log) (hd : t.draws = s.draws) :
    PersistLeaves s t.persist := by
  unfold PersistLeaves
  rw [← hn, ← hl, ← hd]
  obtain ⟨hlock, e⟩ | ⟨hlock, hwrite, e⟩ | ⟨hlock, hwrite, e⟩ := t.persist_cases
  · simp [e, hlock]
  · simp [e, hlock, hwrite]
  · simp [e, hlock, hwrite, State.cfgs]

theorem State.persist_of_written (hlock : s.draws.lockOk = true) (hwrite : s.draws.persistOk = true) :
    s.persist = { s with nvm := { valid := true, busCount := s.numBusses, busConfig := s.cfgs } } := by
  obtain ⟨h, _⟩ | ⟨_, h, _⟩ | ⟨_, _, e⟩ := s.persist_cases
  · cases hlock.symm.trans h
  · cases hwrite.symm.trans h
  · exact e

theorem exec_persist (ht : s.transportOk = true) : exec .persist s = .next s.persist := onTransport_ok ht

/-- Settles O29: the three outcomes of `PERSIST`, told apart by the two draws. -/
theorem persistRewritesTheRecord : Obligations.PersistRewritesTheRecord := by
  unfold Obligations.PersistRewritesTheRecord
  intro s ht
  rw [exec_persist ht]
  obtain ⟨hlock, e⟩ | ⟨hlock, hwrite, e⟩ | ⟨hlock, hwrite, e⟩ := s.persist_cases
  · simp [e, hlock, State.logEvent]
  · simp [e, hlock, hwrite, State.logEvent]
  · simp [e, hlock, hwrite]

/-! ### A bus record stored, persisted on a change -/

/-- Bus `b`'s record replaced by `y`, with a `PERSIST` if a stored setting changed: how every configuration operation
ends on a valid index. -/
def State.storeBus (s : State) (b : BusIx) (y : Bus) (changed : Bool) : State :=
  if changed then (s.setBus b y).persist else s.setBus b y

theorem SameButBus.setBus (s : State) (b : BusIx) (y : Bus) : SameButBus s (s.setBus b y) b :=
  ⟨rfl, List.length_set, fun c hc => s.bus_setBus_ne b c y hc⟩

theorem SameButBus.persist (h : SameButBus s t b) : SameButBus s t.persist b := by
  obtain ⟨hframe, hlength, hother⟩ := h
  refine ⟨?_, by rw [t.persist_buses, hlength], fun c hc => by rw [t.bus_persist, hother c hc]⟩
  rw [t.persist_eq, hframe]

theorem State.storeBus_leaves (hb : b.toNat < s.buses.length) (y : Bus) (changed : Bool) :
    SameButBus s (s.storeBus b y changed) b ∧
      (if changed then PersistLeaves s (s.storeBus b y changed) else NotPersisted s (s.storeBus b y changed)) ∧
      (s.storeBus b y changed).bus b = y := by
  have hbus : (s.setBus b y).bus b = y := s.bus_setBus_self b y hb
  cases changed
  · exact ⟨.setBus s b y, ⟨rfl, rfl⟩, hbus⟩
  · exact ⟨(SameButBus.setBus s b y).persist, .persist rfl rfl rfl, ((s.setBus b y).bus_persist b).trans hbus⟩

theorem State.setBus_bus (hb : b.toNat < s.buses.length) : s.setBus b (s.bus b) = s := by
  rw [State.setBus, s.bus_eq_get b hb, List.set_getElem_self]

theorem clampRate_eq {p : Params} {rate r : Word32} (h : r.toNat = min rate.toNat p.maxBitrate.toNat) :
    clampRate p rate = r :=
  BitVec.eq_of_toNat_eq ((clampRate_toNat p rate).trans h.symm)

/-! ### `ENABLE` (R101) -/

/-- The record `ENABLE` stores. -/
def Bus.enabledAt (x : Bus) (r : Word32) : Bus :=
  { x with
    cfg := { enabled := true, listenOnly := x.cfg.listenOnly, bitrate := r }
    ctrlRunning := true, ctrlRate := r, irqRegistered := true
    ctrlCmd := x.ctrlCmd ++ (if x.cfg.enabled then [.stop, .start r] else [.start r]) }

theorem exec_enable_of_valid (ht : s.transportOk = true) (hb : b.toNat < s.numBusses.toNat) (rate : Word32) :
    exec (.enable b rate) s = .next (s.storeBus b ((s.bus b).enabledAt (clampRate s.inst rate)) true) := by
  refine onValidBus_of_valid ht hb ?_
  cases he : (s.bus b).cfg.enabled <;>
    simp [State.storeBus, Bus.enabledAt, Bus.ctrlStart, Bus.ctrlStop, he]

/-- Settles O23: one `storeBus` that always persists. -/
theorem enableStartsTheController : Obligations.EnableStartsTheController := by
  unfold Obligations.EnableStartsTheController
  intro s bus rate r ht hlen hr
  refine ⟨fun hb => ?_, onValidBus_of_invalid ht⟩
  obtain ⟨hsame, hpersist, hbus⟩ := State.storeBus_leaves (hb.trans_le hlen) ((s.bus bus).enabledAt r) true
  exact ⟨_, clampRate_eq hr ▸ exec_enable_of_valid ht hb rate, hsame, hpersist, hbus⟩

/-! ### `DISABLE` (R102) -/

/-- The record `DISABLE` stores. -/
def Bus.disabled (x : Bus) : Bus :=
  { x with
    cfg := { x.cfg with enabled := false }
    ctrlRunning := false
    ctrlCmd := x.ctrlCmd ++ (if x.ctrlRunning then [.stop] else []) }

/-- A stopped controller gets no command, and a cleared flag is stored as it stands. -/
theorem exec_disable_of_valid (ht : s.transportOk = true) (hb : b.toNat < s.numBusses.toNat) :
    exec (.disable b) s = .next (s.storeBus b (s.bus b).disabled (s.bus b).cfg.enabled) := by
  refine onValidBus_of_valid ht hb ?_
  generalize s.bus b = x
  obtain ⟨⟨enabled, _, _⟩, running, _⟩ := x
  cases enabled <;> cases running <;> simp [State.storeBus, Bus.disabled, Bus.ctrlStop]

/-- Settles O24: one `storeBus` that persists when the flag was set. -/
theorem disableStopsTheController : Obligations.DisableStopsTheController := by
  unfold Obligations.DisableStopsTheController
  intro s bus ht hlen
  refine ⟨fun hb => ?_, onValidBus_of_invalid ht, _, rfl⟩
  exact ⟨_, exec_disable_of_valid ht hb, State.storeBus_leaves (hb.trans_le hlen) _ _⟩

/-! ### `SET_BITRATE` (R103) -/

/-- The record `SET_BITRATE` stores. -/
def Bus.ratedAt (x : Bus) (r : Word32) : Bus :=
  if x.cfg.enabled then
    { x with
      cfg := { x.cfg with bitrate := r }
      ctrlRunning := true, ctrlRate := r, irqRegistered := true
      ctrlCmd := x.ctrlCmd ++ [.stop, .start r] }
  else { x with cfg := { x.cfg with bitrate := r } }

/-- An unchanged rate is stored as it stands. -/
theorem exec_setBitrate_of_valid (ht : s.transportOk = true) (hb : b.toNat < s.numBusses.toNat) (rate : Word32) :
    exec (.setBitrate b rate) s =
      .next (s.storeBus b ((s.bus b).ratedAt (clampRate s.inst rate))
        ((s.bus b).cfg.bitrate != clampRate s.inst rate)) := by
  refine onValidBus_of_valid ht hb ?_
  generalize clampRate s.inst rate = r
  generalize s.bus b = x
  obtain ⟨⟨enabled, _, bitrate⟩, _⟩ := x
  by_cases h : bitrate = r <;> cases enabled <;>
    simp [State.storeBus, Bus.ratedAt, Bus.ctrlStart, Bus.ctrlStop, h]

/-- Settles O25: one `storeBus` that persists when the rate differs. -/
theorem setBitrateRestartsAnEnabledBus : Obligations.SetBitrateRestartsAnEnabledBus := by
  unfold Obligations.SetBitrateRestartsAnEnabledBus
  intro s bus rate r ht hlen hr
  refine ⟨fun hb => ?_, onValidBus_of_invalid ht⟩
  obtain ⟨hsame, hpersist, hbus⟩ :=
    State.storeBus_leaves (hb.trans_le hlen) ((s.bus bus).ratedAt r) ((s.bus bus).cfg.bitrate != r)
  exact ⟨_, clampRate_eq hr ▸ exec_setBitrate_of_valid ht hb rate, hsame, by simpa using hpersist, hbus⟩

/-! ### `SET_LISTENONLY` (R104) -/

/-- The record `SET_LISTENONLY` stores. -/
def Bus.listening (x : Bus) (flag : Bool) : Bus := { x with cfg := { x.cfg with listenOnly := flag } }

theorem Bus.listening_self (x : Bus) : x.listening x.cfg.listenOnly = x := rfl

/-- An unchanged flag is stored as it stands. -/
theorem exec_setListenOnly_of_valid (ht : s.transportOk = true) (hb : b.toNat < s.numBusses.toNat)
    (hlen : b.toNat < s.buses.length) (flag : Bool) :
    exec (.setListenOnly b flag) s =
      .next (s.storeBus b ((s.bus b).listening flag) ((s.bus b).cfg.listenOnly != flag)) := by
  refine onValidBus_of_valid ht hb ?_
  by_cases h : (s.bus b).cfg.listenOnly = flag
  · subst h
    simp [State.storeBus, Bus.listening_self, State.setBus_bus hlen]
  · simp [State.storeBus, Bus.listening, h]

theorem exec_setListenOnly_of_same {flag : Bool} (ht : s.transportOk = true) (hb : b.toNat < s.numBusses.toNat)
    (h : (s.bus b).cfg.listenOnly = flag) : exec (.setListenOnly b flag) s = .next s :=
  onValidBus_of_valid ht hb (by simp [h])

/-- Settles O26: one `storeBus` that persists when the flag differs; the second call finds the flag it would store. -/
theorem setListenOnlyIsIdempotent : Obligations.SetListenOnlyIsIdempotent := by
  unfold Obligations.SetListenOnlyIsIdempotent
  intro s bus flag ht hlen
  refine ⟨fun hb => ?_, onValidBus_of_invalid ht, _, rfl⟩
  have hin := hb.trans_le hlen
  obtain ⟨hsame, hpersist, hbus⟩ :=
    State.storeBus_leaves hin ((s.bus bus).listening flag) ((s.bus bus).cfg.listenOnly != flag)
  refine ⟨_, exec_setListenOnly_of_valid ht hb hin flag, hsame, by simpa using hpersist, hbus, ?_⟩
  obtain ⟨hframe, _⟩ := hsame
  exact exec_setListenOnly_of_same (by rw [hframe]; exact ht) (by rw [hframe]; exact hb) (by rw [hbus]; rfl)

/-! ### The bus count (R108, R109) -/

theorem runningFrom_eq_true {n : Nat} {xs : List Bus} :
    runningFrom n xs = true ↔ ∃ k x, xs[k]? = some x ∧ n ≤ k ∧ x.ctrlRunning = true := by
  simp only [runningFrom, List.any_eq_true, List.mem_iff_getElem?, List.getElem?_drop]
  constructor
  · rintro ⟨x, ⟨i, hi⟩, hrun⟩
    exact ⟨n + i, x, hi, Nat.le_add_right n i, hrun⟩
  · rintro ⟨k, x, hk, hn, hrun⟩
    exact ⟨x, ⟨k - n, by rwa [Nat.add_sub_cancel' hn]⟩, hrun⟩

theorem exec_setNumBusses_of_legal {n : Byte} (ht : s.transportOk = true) (hn : n.toNat < s.inst.maxBusses)
    (hrun : runningFrom n.toNat s.buses = false) :
    exec (.setNumBusses n) s =
      .next (if s.numBusses = n then s else ({ s with numBusses := n } : State).persist) := by
  refine (onTransport_ok ht).trans ?_
  by_cases h : s.numBusses = n <;> simp [hrun, Nat.not_le.2 hn, h]

theorem exec_setNumBusses_of_illegal {n : Byte} (ht : s.transportOk = true)
    (h : s.inst.maxBusses ≤ n.toNat ∨ runningFrom n.toNat s.buses = true) :
    exec (.setNumBusses n) s = .refused .busCount :=
  (onTransport_ok ht).trans (if_pos (by simpa using h))

/-- Settles O28: a running controller at or above the count is what `runningFrom` looks for. -/
theorem busCountIsReadAndSet : Obligations.BusCountIsReadAndSet := by
  unfold Obligations.BusCountIsReadAndSet
  intro s n ht
  refine ⟨onTransport_ok ht, fun hn hstopped => ?_, fun h => ?_⟩
  · have hrun : runningFrom n.toNat s.buses = false := by
      rw [Bool.eq_false_iff, Ne, runningFrom_eq_true]
      rintro ⟨k, x, hk, hle, hx⟩
      exact absurd hx (by simp [hstopped k x hk hle])
    refine ⟨_, exec_setNumBusses_of_legal ht hn hrun, ?_⟩
    by_cases h : s.numBusses = n
    · subst h
      simp [NotPersisted]
    · simp only [if_neg h]
      exact ⟨State.persist_eq _, .persist rfl rfl rfl⟩
  · exact exec_setNumBusses_of_illegal ht (h.imp_right runningFrom_eq_true.2)

/-! ### `LOAD_SETTINGS` (R111) -/

theorem exec_loadSettings (ht : s.transportOk = true) : exec .loadSettings s = .next s.loadSettings := onTransport_ok ht

theorem State.nvmOk_iff (s : State) :
    s.nvmOk = true ↔ s.nvm.valid = true ∧ s.nvm.busCount.toNat < s.inst.maxBusses := by
  simp [State.nvmOk]

/-- Entry by entry, with as many configurations as buses. -/
theorem setCfgs_eq_zipWith {xs : List Bus} {cs : List BusConfig} (h : cs.length = xs.length) :
    setCfgs xs cs = List.zipWith (fun x c => { x with cfg := c }) xs cs := by
  induction xs generalizing cs with
  | nil => cases cs <;> rfl
  | cons x xs ih =>
    cases cs with
    | nil => cases h
    | cons c cs => rw [setCfgs, ih (Nat.succ.inj h), List.zipWith_cons_cons]

theorem map_cfg_setCfgs {xs : List Bus} {cs : List BusConfig} (h : cs.length = xs.length) :
    (setCfgs xs cs).map Bus.cfg = cs := by
  rw [setCfgs_eq_zipWith h, List.map_zipWith]
  exact List.ext_getElem (by simp [h]) (by simp)

theorem State.loadSettings_of_valid (h : s.nvmOk = true) :
    s.loadSettings = { s with numBusses := s.nvm.busCount, buses := setCfgs s.buses s.nvm.busConfig } :=
  (s.loadSettings_cases.resolve_right (by simp [h])).2

theorem State.loadSettings_of_invalid (h : s.nvmOk = false) :
    s.loadSettings =
      { s.logEvent .persistFail with
        numBusses := s.inst.defaultNumBusses
        buses := s.buses.map fun x => { x with cfg := defaultCfg s.inst } } :=
  (s.loadSettings_cases.resolve_left (by simp [h])).2

theorem State.cfgs_loadSettings_of_valid (h : s.nvmOk = true) (hlen : s.nvm.busConfig.length = s.buses.length) :
    s.loadSettings.cfgs = s.nvm.busConfig := by
  rw [State.loadSettings_of_valid h]
  exact map_cfg_setCfgs hlen

/-- Loading writes the count, the bus array and the log. -/
theorem State.loadSettings_eq (s : State) :
    s.loadSettings =
      { s with
        numBusses := s.loadSettings.numBusses, buses := s.loadSettings.buses, log := s.loadSettings.log } := by
  obtain ⟨_, e⟩ | ⟨_, e⟩ := s.loadSettings_cases
  · rw [e]
  · rw [e]
    rfl

theorem State.length_loadSettings_buses (s : State) : s.loadSettings.buses.length = s.buses.length := by
  obtain ⟨_, e⟩ | ⟨_, e⟩ := s.loadSettings_cases <;> rw [e]
  · exact length_setCfgs _ _
  · exact List.length_map _

/-- Loading touches no controller, queue or counter. -/
theorem State.bus_loadSettings (hlen : s.nvm.busConfig.length = s.buses.length) (hb : b.toNat < s.buses.length) :
    s.loadSettings.bus b = { s.bus b with cfg := (s.loadSettings.bus b).cfg } := by
  rw [s.loadSettings.bus_eq_get b (s.length_loadSettings_buses ▸ hb), s.bus_eq_get b hb]
  obtain ⟨_, e⟩ | ⟨_, e⟩ := s.loadSettings_cases
  · simp [e, setCfgs_eq_zipWith hlen]
  · simp [e]

/-- Settles O30: `nvmOk` decides between the record and the defaults. -/
theorem loadSettingsTakesTheRecord : Obligations.LoadSettingsTakesTheRecord := by
  unfold Obligations.LoadSettingsTakesTheRecord
  intro s ht hlen
  refine ⟨_, exec_loadSettings ht, s.loadSettings_eq, s.length_loadSettings_buses,
    fun b hb => State.bus_loadSettings hlen hb, fun hvalid hcount => ?_, fun h => ?_⟩
  · have hok : s.nvmOk = true := s.nvmOk_iff.2 ⟨hvalid, hcount⟩
    have hload := State.loadSettings_of_valid hok
    exact ⟨by rw [hload], State.cfgs_loadSettings_of_valid hok hlen, by rw [hload]⟩
  · have hbad : s.nvmOk = false := by
      rw [Bool.eq_false_iff, Ne, s.nvmOk_iff, not_and_or, Nat.not_lt, Bool.not_eq_true]
      exact h
    rw [State.loadSettings_of_invalid hbad]
    exact ⟨rfl, rfl, by simp [State.cfgs, defaultCfg]⟩

/-- Settles O31: the record `PERSIST` wrote is valid, and as long as the bus array. -/
theorem persistThenLoadRestores : Obligations.PersistThenLoadRestores := by
  unfold Obligations.PersistThenLoadRestores
  intro s t u hlock hwrite hcount hpersist hnvm hinst hlen ht
  have hrecord : u.nvm = { valid := true, busCount := s.numBusses, busConfig := s.cfgs } := by
    obtain ⟨_, h⟩ := onTransport_next.1 hpersist
    cases h
    rw [hnvm, State.persist_of_written hlock hwrite]
  have hok : u.nvmOk = true := by simpa [State.nvmOk_iff, hrecord, hinst] using hcount
  have hlength : u.nvm.busConfig.length = u.buses.length := by simp [hrecord, hlen, State.cfgs]
  refine ⟨_, exec_loadSettings ht, ?_, ?_⟩
  · rw [State.cfgs_loadSettings_of_valid hok hlength, hrecord]
  · rw [State.loadSettings_of_valid hok, hrecord]

end Sys2Proof.Machine
end

section
/-! PROOFS of the family 42_transport_queues: `RX_EVENT` (R130), `SEND` (R131), `RECEIVE` (R132), the operations that
hold and look again (R139, R163) and the arbiter (R133). -/

namespace Sys2Proof.Machine

variable {s u : State} {b : BusIx}

/-! ### `RX_EVENT` (R130, R290) -/

theorem exec_rxEvent (ht : s.transportOk = true) (b : BusIx) (f : CanFrame) :
    exec (.rxEvent b f) s =
      if (s.bus b).delivers then .next (s.setBus b ((s.bus b).rxEvent s.inst.rxqDepth f)) else .next s :=
  onTransport_ok ht

theorem Bus.delivers_iff (x : Bus) : x.delivers = true ↔ x.irqRegistered = true ∧ x.ctrlRunning = true := by
  simp [Bus.delivers]

theorem Bus.rxEvent_of_room {depth : Nat} {x : Bus} (h : x.rxq.length < depth) (f : CanFrame) :
    x.rxEvent depth f = { x with rxq := x.rxq ++ [f] } := if_pos h

theorem Bus.rxEvent_of_full {depth : Nat} {x : Bus} (h : depth ≤ x.rxq.length) (f : CanFrame) :
    x.rxEvent depth f = { x with rxOverflow := x.rxOverflow + 1 } := if_neg (Nat.not_lt.2 h)

/-- Settles O32: a delivered frame meets a queue with room or a full one. -/
theorem rxEventQueuesOrCounts : Obligations.RxEventQueuesOrCounts := by
  unfold Obligations.RxEventQueuesOrCounts
  intro s b f ht
  rw [exec_rxEvent ht]
  refine ⟨fun hirq hrun hroom => ?_, fun hirq hrun hfull => ?_, fun h => ?_⟩
  · rw [if_pos ((Bus.delivers_iff _).2 ⟨hirq, hrun⟩), Bus.rxEvent_of_room hroom]
  · rw [if_pos ((Bus.delivers_iff _).2 ⟨hirq, hrun⟩), Bus.rxEvent_of_full hfull]
  · refine if_neg fun hdelivers => ?_
    obtain ⟨hirq, hrun⟩ := (Bus.delivers_iff _).1 hdelivers
    simp [hirq, hrun] at h

/-! ### `SEND` (R131, R286, R288) -/

section
variable {f : CanFrame} {r : Int}

theorem exec_send_of_results (ht : s.transportOk = true) (h : s.sendResults b f r u) :
    exec (.send b f) s = .next { u with answers := u.answers ++ [.code r] } :=
  sendThen_of_results ht h

theorem exec_send_of_waits (ht : s.transportOk = true) (hp : s.sendPasses b) (hw : s.sendWaits b) :
    exec (.send b f) s = .next { s with held := s.held ++ [.send b f .client] } :=
  sendThen_of_waits ht hp hw

end

/-- Settles O33: the first four clauses and the give-up are the results of `sendResults`; the last is the hold. -/
theorem sendChecksThenQueues : Obligations.SendChecksThenQueues := by
  unfold Obligations.SendChecksThenQueues
  intro s b f ht
  refine ⟨fun hb => ?_, fun hb he => ?_, fun hb he hl => ?_, fun ha => ?_, fun hb he hl hfull => ?_⟩
  · exact exec_send_of_results ht (.inl ⟨hb, rfl, rfl⟩)
  · exact exec_send_of_results ht (.inr (.inl ⟨hb, he, rfl, rfl⟩))
  · exact exec_send_of_results ht (.inr (.inr (.inl ⟨hb, he, hl, rfl, rfl⟩)))
  · exact exec_send_of_results ht (sendResults_of_accepts ha f)
  · have hpasses : s.sendPasses b := ⟨hb, he, hl⟩
    cases hg : s.draws.giveUp
    · exact exec_send_of_waits ht hpasses ⟨hfull, hg⟩
    · exact exec_send_of_results ht (.inr (.inr (.inr ⟨hpasses, .inr ⟨hfull, hg, rfl, rfl⟩⟩)))

/-! ### `RECEIVE` (R132, R139) -/

theorem receiveLook_of_head {f : CanFrame} {rest : List CanFrame} (h : (s.bus b).rxq = f :: rest) :
    receiveLook b s = some (some f, (rest.length : Int), s.setBus b { s.bus b with rxq := rest }) := by
  simp [receiveLook, h]

theorem receiveLook_of_empty (h : (s.bus b).rxq = []) :
    receiveLook b s = if s.draws.giveUp then some (none, -5, s) else none := by
  simp [receiveLook, h, eEmpty]

theorem exec_receive_of_invalid (ht : s.transportOk = true) (hb : s.numBusses.toNat ≤ b.toNat) :
    exec (.receive b) s =
      .next { s with log := s.log ++ [.invalidBus b], answers := s.answers ++ [.received (-1) none] } := by
  refine (onTransport_ok ht).trans ?_
  rw [(s.validBus_eq_false_iff b).2 hb]
  rfl

theorem exec_receive_of_answer {f : Option CanFrame} {r : Int} (ht : s.transportOk = true)
    (hb : b.toNat < s.numBusses.toNat) (h : receiveLook b s = some (f, r, u)) :
    exec (.receive b) s = .next (u.answer (.received r f)) := by
  refine (onTransport_ok ht).trans ?_
  rw [(s.validBus_iff b).2 hb, h]
  rfl

theorem exec_receive_of_hold (ht : s.transportOk = true) (hb : b.toNat < s.numBusses.toNat)
    (h : receiveLook b s = none) :
    exec (.receive b) s = .next { s with held := s.held ++ [.receive b] } := by
  refine (onTransport_ok ht).trans ?_
  rw [(s.validBus_iff b).2 hb, h]
  rfl

/-- Settles O34: on a valid index, what the look at the queue answers. -/
theorem receiveTakesTheHead : Obligations.ReceiveTakesTheHead := by
  unfold Obligations.ReceiveTakesTheHead
  intro s b ht
  refine ⟨exec_receive_of_invalid ht, fun f rest hb hq => ?_, fun hb hq => ?_⟩
  · exact exec_receive_of_answer ht hb (receiveLook_of_head hq)
  · have hlook := receiveLook_of_empty hq
    cases hg : s.draws.giveUp
    · exact exec_receive_of_hold ht hb (by simpa [hg] using hlook)
    · exact exec_receive_of_answer ht hb (by simpa [hg] using hlook)

/-! ### A held operation of `CLIENT` or `ELMTASK` looks again (R139, R131) -/

section
variable {k : Nat} {f : CanFrame} {c : SendCont} {r : Int}

theorem step_of_resume (h : s.nextStimulus.action = .resume k) : step s = resumeHeld k s.beginStep := by
  simp [step, h, fetch]

theorem held_of_sendSettles (h : s.sendSettles b f r u) : u.held = s.held := by
  obtain ⟨_, _, rfl⟩ | ⟨_, _, _, rfl⟩ := h <;> rfl

theorem resumeHeld_of_none (ht : s.transportOk = true) (hk : s.held[k]? = none) : resumeHeld k s = .next s := by
  simp [resumeHeld, ht, hk]

theorem resumeHeld_send_of_settles (ht : s.transportOk = true) (hk : s.held[k]? = some (.send b f c))
    (h : s.sendSettles b f r u) :
    resumeHeld k s = .next (finishSend c r { u with held := s.held.eraseIdx k }) := by
  simp [resumeHeld, ht, hk, sendLook_of_settles h, held_of_sendSettles h]

theorem resumeHeld_send_of_waits (ht : s.transportOk = true) (hk : s.held[k]? = some (.send b f c))
    (h : s.sendWaits b) : resumeHeld k s = .next s := by
  simp [resumeHeld, ht, hk, sendLook_of_waits h]

theorem resumeHeld_receive_of_head {rest : List CanFrame} (ht : s.transportOk = true)
    (hk : s.held[k]? = some (.receive b)) (hq : (s.bus b).rxq = f :: rest) :
    resumeHeld k s =
      .next
        { s.setBus b { s.bus b with rxq := rest } with
          held := s.held.eraseIdx k, answers := s.answers ++ [.received rest.length (some f)] } := by
  simp [resumeHeld, ht, hk, receiveLook_of_head hq, State.answer]

theorem resumeHeld_receive_of_empty (ht : s.transportOk = true) (hk : s.held[k]? = some (.receive b))
    (hq : (s.bus b).rxq = []) :
    resumeHeld k s =
      .next
        (if s.draws.giveUp then
          { s with held := s.held.eraseIdx k, answers := s.answers ++ [.received (-5) none] }
        else s) := by
  cases hg : s.draws.giveUp <;> simp [resumeHeld, ht, hk, receiveLook_of_empty hq, hg, State.answer]

end

/-! ### The receive task looks again (R139, R163) -/

/-- The `SEND` in which the receive task of `own` holds, and the rest that follows it. -/
def RxPhase.heldSend (own : BusIx) : RxPhase → Option (BusIx × CanFrame × SendCont)
  | .forwarding other f => some (other, f, .rxBridge own f)
  | .answering b fc f line => some (b, fc, .frame (.rxTask own) f line)
  | .idle | .receiving | .bridging _ | .emulating _ => none

section
variable {own : BusIx} {f : CanFrame} {c : SendCont} {r : Int}

/-- A task that holds in a `SEND` looks at the queue of that `SEND`, and does nothing else while it goes on holding. -/
theorem exec_rxTaskStep_of_heldSend (ht : s.transportOk = true)
    (hp : (s.bus own).rxTask.heldSend own = some (b, f, c)) :
    exec (.rxTaskStep own) s = .next ((sendLook b f s).elim s fun look => finishSend c look.1 look.2) := by
  refine (onTransport_ok ht).trans ?_
  cases hphase : (s.bus own).rxTask with
  | forwarding | answering =>
    rw [hphase] at hp
    cases hp
    dsimp only
    cases sendLook b f s <;> rfl
  | _ => rw [hphase] at hp; cases hp

theorem exec_rxTaskStep_of_settles (ht : s.transportOk = true)
    (hp : (s.bus own).rxTask.heldSend own = some (b, f, c)) (h : s.sendSettles b f r u) :
    exec (.rxTaskStep own) s = .next (finishSend c r u) := by
  rw [exec_rxTaskStep_of_heldSend ht hp, sendLook_of_settles h, Option.elim_some]

theorem exec_rxTaskStep_of_waits (ht : s.transportOk = true)
    (hp : (s.bus own).rxTask.heldSend own = some (b, f, c)) (h : s.sendWaits b) :
    exec (.rxTaskStep own) s = .next s := by
  rw [exec_rxTaskStep_of_heldSend ht hp, sendLook_of_waits h, Option.elim_none]

theorem exec_rxTaskStep_receiving (ht : s.transportOk = true) (hp : (s.bus own).rxTask = .receiving) :
    exec (.rxTaskStep own) s = rxTaskReceive own s := by
  refine (onTransport_ok ht).trans ?_
  rw [hp]

/-- The task's phase, written after its bus's record. -/
theorem State.setRxTask_setBus (hb : b.toNat < s.buses.length) (x : Bus) (p : RxPhase) :
    (s.setBus b x).setRxTask b p = s.setBus b { x with rxTask := p } := by
  rw [State.setRxTask, s.bus_setBus_self b x hb]
  simp [State.setBus]

theorem rxTaskReceive_of_head {rest : List CanFrame} (hb : b.toNat < s.buses.length)
    (hq : (s.bus b).rxq = f :: rest) :
    rxTaskReceive b s = .next (s.setBus b { s.bus b with rxq := rest, rxTask := .bridging f }) := by
  simp only [rxTaskReceive, receiveLook_of_head hq, State.setRxTask_setBus hb]

theorem rxTaskReceive_of_empty (hq : (s.bus b).rxq = []) :
    rxTaskReceive b s =
      .next (s.setBus b { s.bus b with rxTask := if s.draws.giveUp then .idle else .receiving }) := by
  cases hg : s.draws.giveUp <;> simp [rxTaskReceive, receiveLook_of_empty hq, hg, State.setRxTask]

end

/-- Settles O35: each rest of the list is `finishSend` of its caller; each holding phase of the task looks at the queue
it waits for. -/
theorem heldSendCompletesOnRoom : Obligations.HeldSendCompletesOnRoom := by
  unfold Obligations.HeldSendCompletesOnRoom
  constructor
  · intro s k ha ht
    rw [step_of_resume ha]
    have ht' : s.beginStep.transportOk = true := ht
    refine ⟨fun b f g service pid expected line p hp hk => ?_, fun b hk => ⟨fun f rest => ?_, ?_⟩, ?_⟩
    · have hrest : p.2 = finishSend p.1 := by
        simp only [List.mem_cons, List.not_mem_nil, or_false] at hp
        obtain rfl | rfl | rfl | rfl | rfl := hp <;> rfl
      rw [hrest]
      exact ⟨fun r u => resumeHeld_send_of_settles ht' hk, resumeHeld_send_of_waits ht' hk⟩
    · exact resumeHeld_receive_of_head ht' hk
    · exact resumeHeld_receive_of_empty ht' hk
    · exact resumeHeld_of_none ht'
  · intro s own ht hb
    refine ⟨fun f rest hp hq => ?_, fun hp hq => ?_, fun other f hp => ?_, fun b fc f line hp => ?_⟩
    · rw [exec_rxTaskStep_receiving ht hp, rxTaskReceive_of_head hb hq]
    · rw [exec_rxTaskStep_receiving ht hp, rxTaskReceive_of_empty hq]
    · have hheld : (s.bus own).rxTask.heldSend own = some (other, f, .rxBridge own f) := by rw [hp]; rfl
      exact ⟨fun r u => exec_rxTaskStep_of_settles ht hheld, exec_rxTaskStep_of_waits ht hheld⟩
    · have hheld : (s.bus own).rxTask.heldSend own = some (b, fc, .frame (.rxTask own) f line) := by rw [hp]; rfl
      refine ⟨?_, exec_rxTaskStep_of_waits ht hheld⟩
      rintro r u v hu rfl
      exact exec_rxTaskStep_of_settles ht hheld hu

/-! ### The arbiter's visiting order (R133) -/

/-- The place of bus `b` in the visiting order of `n` buses from `p`, as `State.visitPosition` counts it. -/
def visitKey (n p b : Nat) : Nat := if p ≤ b then b else n + b

theorem State.visitPosition_eq (s : State) (b : BusIx) :
    s.visitPosition b = visitKey s.numBusses.toNat s.arbPtr.toNat b.toNat := rfl

theorem mem_arbiterOrder {n p b : Nat} : b ∈ arbiterOrder n p ↔ b < n := by
  simp only [arbiterOrder, List.mem_append, List.mem_filter, List.mem_range, decide_eq_true_eq, ← and_or_left,
    and_iff_left_iff_imp]
  omega

/-- The buses are visited by rising place: each part rises, and the second starts above the first. -/
theorem arbiterOrder_pairwise (n p : Nat) : (arbiterOrder n p).Pairwise fun b c => visitKey n p b < visitKey n p c := by
  have hrises (q : Nat → Bool) : ((List.range n).filter q).Pairwise (· < ·) := List.pairwise_lt_range.filter q
  have hfirst : ∀ b ∈ (List.range n).filter (fun b => p ≤ b), b < n ∧ visitKey n p b = b := by
    simp +contextual [visitKey]
  have hsecond : ∀ b ∈ (List.range n).filter (fun b => b < p), visitKey n p b = n + b := by
    simp +contextual [visitKey]
  refine List.pairwise_append.2 ⟨(hrises _).imp_of_mem ?_, (hrises _).imp_of_mem ?_, ?_⟩
  · intro b c hb hc hlt
    rwa [(hfirst b hb).2, (hfirst c hc).2]
  · intro b c hb hc hlt
    rw [hsecond b hb, hsecond c hc]
    omega
  · intro b hb c hc
    obtain ⟨hlt, hkey⟩ := hfirst b hb
    rw [hkey, hsecond c hc]
    omega

/-- In a list sorted by a key, the search finds the element with the least key among those that pass. -/
theorem find?_of_least_key {key : Nat → Nat} {q : Nat → Bool} {l : List Nat} {b : Nat}
    (hl : l.Pairwise fun x y => key x < key y) (hb : b ∈ l) (hq : q b = true)
    (hleast : ∀ c ∈ l, q c = true → key b ≤ key c) : l.find? q = some b := by
  induction l with
  | nil => cases hb
  | cons x l ih =>
    obtain ⟨hx, hl⟩ := List.pairwise_cons.1 hl
    obtain rfl | hb := List.mem_cons.1 hb
    · exact List.find?_cons_of_pos hq
    · have hskip : ¬ q x = true := fun hqx =>
        absurd (hleast x List.mem_cons_self hqx) (Nat.not_le.2 (hx b hb))
      rw [List.find?_cons_of_neg hskip]
      exact ih hl hb fun c hc => hleast c (List.mem_cons_of_mem x hc)

/-! ### The served bus (R133, D10) -/

theorem State.txPending_iff (s : State) (b : BusIx) :
    s.txPending b.toNat = true ↔ b.toNat < s.numBusses.toNat ∧ (s.bus b).txq ≠ [] := by
  simp [State.txPending]

/-- A pending bus is a valid one, so its number is an index. -/
theorem State.exists_index_of_txPending {n : Nat} (h : s.txPending n = true) : ∃ b : BusIx, b.toNat = n := by
  have hn : n < s.numBusses.toNat := by
    simp only [State.txPending, Bool.and_eq_true, decide_eq_true_eq] at h
    exact h.1
  exact ⟨BitVec.ofNat 8 n, Nat.mod_eq_of_lt (hn.trans s.numBusses.isLt)⟩

/-- The draw names a pending bus, or the visiting order is searched. -/
theorem State.arbiterBus_cases (s : State) :
    (∃ b, s.draws.txChoice = some b ∧ s.txPending b.toNat = true ∧ s.arbiterBus = some b.toNat) ∨
      ((∀ b, s.draws.txChoice = some b → s.txPending b.toNat = false) ∧
        s.arbiterBus = (arbiterOrder s.numBusses.toNat s.arbPtr.toNat).find? s.txPending) := by
  unfold State.arbiterBus
  cases s.draws.txChoice with
  | none => simp
  | some b => cases hp : s.txPending b.toNat <;> simp [hp]

theorem State.txPending_of_arbiterBus {n : Nat} (h : s.arbiterBus = some n) : s.txPending n = true := by
  obtain ⟨b, _, hp, e⟩ | ⟨_, e⟩ := s.arbiterBus_cases <;> rw [e] at h
  · cases h; exact hp
  · exact List.find?_some h

theorem State.arbiterBus_eq_none_iff (s : State) :
    s.arbiterBus = none ↔ ∀ b : BusIx, b.toNat < s.numBusses.toNat → (s.bus b).txq = [] := by
  constructor
  · intro h b hb
    obtain ⟨_, _, _, e⟩ | ⟨_, e⟩ := s.arbiterBus_cases <;> rw [e] at h
    · cases h
    · by_contra hq
      exact List.find?_eq_none.1 h b.toNat (mem_arbiterOrder.2 hb) ((s.txPending_iff b).2 ⟨hb, hq⟩)
  · intro h
    by_contra hne
    obtain ⟨n, hn⟩ := Option.ne_none_iff_exists'.1 hne
    have hp := State.txPending_of_arbiterBus hn
    obtain ⟨b, rfl⟩ := State.exists_index_of_txPending hp
    obtain ⟨hb, hq⟩ := (s.txPending_iff b).1 hp
    exact hq (h b hb)

theorem State.arbiterBus_of_drawn (hd : s.draws.txChoice = some b) (hp : s.txPending b.toNat = true) :
    s.arbiterBus = some b.toNat := by
  obtain ⟨c, hc, _, e⟩ | ⟨hno, _⟩ := s.arbiterBus_cases
  · obtain rfl : b = c := Option.some.inj (hd.symm.trans hc)
    exact e
  · exact absurd hp (by simp [hno b hd])

theorem State.arbiterBus_of_first (hd : s.draws.txChoice = none) (hp : s.txPending b.toNat = true)
    (hfirst : ∀ c : BusIx, c.toNat < s.numBusses.toNat → (s.bus c).txq ≠ [] →
      s.visitPosition b ≤ s.visitPosition c) : s.arbiterBus = some b.toNat := by
  obtain ⟨c, hc, _⟩ | ⟨_, e⟩ := s.arbiterBus_cases
  · cases hd.symm.trans hc
  · rw [e]
    obtain ⟨hb, _⟩ := (s.txPending_iff b).1 hp
    refine find?_of_least_key (arbiterOrder_pairwise _ _) (mem_arbiterOrder.2 hb) hp fun n _ hn => ?_
    obtain ⟨c, rfl⟩ := State.exists_index_of_txPending hn
    obtain ⟨hc, hq⟩ := (s.txPending_iff c).1 hn
    simpa only [State.visitPosition_eq] using hfirst c hc hq

/-! ### `TX_STEP` (R133) -/

/-- Bus `b` served: its head, `f`, goes to its controller, `rest` stays. -/
def State.served (s : State) (b : BusIx) (f : CanFrame) (rest : List CanFrame) : State :=
  { s.setBus b { s.bus b with txq := rest, canOut := (s.bus b).canOut ++ [f] } with
    arbPtr := if rest = [] then BitVec.ofNat 8 ((b.toNat + 1) % s.numBusses.toNat) else b }

theorem nextArbPtr_eq (b : BusIx) (n : Nat) (left : List CanFrame) :
    nextArbPtr b.toNat n left = if left = [] then BitVec.ofNat 8 ((b.toNat + 1) % n) else b := by
  simp [nextArbPtr]

section
variable {f : CanFrame} {rest : List CanFrame}

theorem State.transmit_of_head (hq : (s.bus b).txq = f :: rest) : s.transmit b.toNat = s.served b f rest := by
  simp [State.transmit, State.served, hq, nextArbPtr_eq]

theorem exec_txStep_of_served (ht : s.transportOk = true) (h : s.arbiterBus = some b.toNat)
    (hq : (s.bus b).txq = f :: rest) : exec .txStep s = .next (s.served b f rest) := by
  refine (onTransport_ok ht).trans ?_
  rw [h, ← State.transmit_of_head hq]

theorem exec_txStep_of_idle (ht : s.transportOk = true) (h : s.arbiterBus = none) : exec .txStep s = .next s := by
  refine (onTransport_ok ht).trans ?_
  rw [h]

end

/-- Settles O36: the drawn bus, or the first pending one of the visiting order, is the arbiter's. -/
theorem txStepServesInOrder : Obligations.TxStepServesInOrder := by
  unfold Obligations.TxStepServesInOrder
  intro s ht _
  refine ⟨fun hempty => exec_txStep_of_idle ht (s.arbiterBus_eq_none_iff.2 hempty), fun b f rest hb hq hchoice => ?_⟩
  have hp : s.txPending b.toNat = true := (s.txPending_iff b).2 ⟨hb, by simp [hq]⟩
  obtain hd | ⟨hd, hfirst⟩ := hchoice
  · exact exec_txStep_of_served ht (State.arbiterBus_of_drawn hd hp) hq
  · exact exec_txStep_of_served ht (State.arbiterBus_of_first hd hp hfirst) hq

/-- Settles O37: the arbiter finds some pending bus, since `b` is one, and serving it writes no other. -/
theorem txStepMovesOneHead : Obligations.TxStepMovesOneHead := by
  unfold Obligations.TxStepMovesOneHead
  intro s b ht hlen hb hq
  have hsome : s.arbiterBus ≠ none := fun h => hq (s.arbiterBus_eq_none_iff.1 h b hb)
  obtain ⟨n, hn⟩ := Option.ne_none_iff_exists'.1 hsome
  have hp := State.txPending_of_arbiterBus hn
  obtain ⟨c, rfl⟩ := State.exists_index_of_txPending hp
  obtain ⟨hc, hcq⟩ := (s.txPending_iff c).1 hp
  obtain ⟨f, rest, hhead⟩ := List.exists_cons_of_ne_nil hcq
  refine ⟨s.served c f rest, c, f, rest, exec_txStep_of_served ht hn hhead, hc, hhead, rfl, ?_, fun d hd => ?_⟩
  · exact s.bus_setBus_self c _ (hc.trans_le hlen)
  · exact s.bus_setBus_ne c d _ hd

end Sys2Proof.Machine
end

section
/-! PROOFS of the family 43_bridge: `SET_BRIDGE` (R160), `HANDLE_BRIDGE` (R161, R162) and the transitions of
`RX_TASK_STEP` (R163). -/

namespace Sys2Proof.Machine

variable {s u : State} {b bus other : BusIx} {f : CanFrame}

/-! ### `SET_BRIDGE` (R160) -/

/-- Settles O38: the lock decides. -/
theorem setBridgeStoresThePair : Obligations.SetBridgeStoresThePair := by
  unfold Obligations.SetBridgeStoresThePair
  intro s a b ht
  refine (onTransport_ok ht).trans ?_
  cases s.draws.lockOk with
  | false => rfl
  | true => rfl

/-! ### The opposite side (R161, R162) -/

theorem bridgeOther_of_apart {br : Bridge} (h : br.a = br.b ∨ (bus ≠ br.a ∧ bus ≠ br.b)) :
    bridgeOther br bus = none := by
  obtain heq | ⟨ha, hb⟩ := h
  · simp [bridgeOther, heq]
  · simp [bridgeOther, ha, hb]

/-- The pair is unordered. -/
theorem bridgeOther_of_pair {br : Bridge} (hne : bus ≠ other)
    (h : br = { a := bus, b := other } ∨ br = { a := other, b := bus }) : bridgeOther br bus = some other := by
  obtain rfl | rfl := h
  · simp [bridgeOther, hne]
  · simp [bridgeOther, hne, hne.symm]

/-! ### `SEND` under the rest of its caller (R131, R139) -/

theorem SendEffect.held {r : Int} (h : SendEffect s b f r u) : u.held = s.held := by
  cases h <;> rfl

theorem SendEffect.answers {r : Int} (h : SendEffect s b f r u) : u.answers = s.answers := by
  cases h <;> rfl

/-- What `SEND` itself does, its effect or the hold, does not depend on the rest of its caller. -/
theorem sendThen_alike (ht : s.transportOk = true) (b : BusIx) (f : CanFrame) :
    (∃ r u, SendEffect s b f r u ∧ ∀ k, sendThen b f k s = .next (finishSend k r u)) ∨
      ∀ k, sendThen b f k s = .next (holdSend b f k s) := by
  simp only [sendThen, onTransport_ok ht]
  cases hs : sendStart b f s with
  | some result =>
    obtain ⟨r, u⟩ := result
    exact .inl ⟨r, u, sendStart_effect hs, fun _ => rfl⟩
  | none => exact .inr fun _ => rfl

/-! ### `HANDLE_BRIDGE` (R162) -/

section
variable {k : SendCont} {done : State → Bool → State}

theorem bridgeFrame_of_noLock (ht : s.transportOk = true) (hl : s.draws.lockOk = false) :
    bridgeFrame bus f k done s = .next (done (s.logEvent .lockTimeout) false) := by
  simp [bridgeFrame, ht, hl, State.raiseError]

theorem bridgeFrame_of_apart (ht : s.transportOk = true) (hl : s.draws.lockOk = true)
    (h : s.bridge.a = s.bridge.b ∨ (bus ≠ s.bridge.a ∧ bus ≠ s.bridge.b)) :
    bridgeFrame bus f k done s = .next (done s false) := by
  simp [bridgeFrame, ht, hl, bridgeOther_of_apart h]

theorem bridgeFrame_of_pair (ht : s.transportOk = true) (hl : s.draws.lockOk = true) (hne : bus ≠ other)
    (h : s.bridge = { a := bus, b := other } ∨ s.bridge = { a := other, b := bus }) :
    bridgeFrame bus f k done s = sendThen other f k s := by
  simp [bridgeFrame, ht, hl, bridgeOther_of_pair hne h]

end

theorem exec_handleBridge (bus : BusIx) (f : CanFrame) (s : State) :
    exec (.handleBridge bus f) s = bridgeFrame bus f .bridge (fun t fwd => t.answer (.bool fwd)) s := rfl

/-- Where the client's `SEND` answers `r`, the `SEND` of the bridge leaves the same and answers whether `r` is not
negative. A client's `SEND` that holds answers nothing. -/
theorem sendThen_bridge_of_client {r : Int} (ht : s.transportOk = true)
    (h : sendThen b f .client s = .next u) (ha : u.answers = s.answers ++ [.code r]) :
    sendThen b f .bridge s = .next { u with answers := s.answers ++ [.bool (0 ≤ r)] } := by
  obtain ⟨r', v, heffect, hsend⟩ | hhold := sendThen_alike ht b f
  · rw [hsend] at h ⊢
    cases h
    have hr : r' = r := by simpa [finishSend, heffect.answers] using ha
    simp [finishSend, State.answer, heffect.answers, hr]
  · rw [hhold] at h
    cases h
    simp [holdSend] at ha

/-- Settles O39: without a side to forward to, the answer is false; with one, it is that of the `SEND`. -/
theorem handleBridgeForwards : Obligations.HandleBridgeForwards := by
  unfold Obligations.HandleBridgeForwards
  intro s bus f ht
  rw [exec_handleBridge]
  refine ⟨fun hl => bridgeFrame_of_noLock ht hl, fun hl h => bridgeFrame_of_apart ht hl h, ?_⟩
  intro other hl hne hpair
  rw [bridgeFrame_of_pair ht hl hne hpair]
  refine ⟨fun haccepts => ?_, fun u r hsend ha => ?_⟩
  · exact sendThen_of_results ht (sendResults_of_accepts haccepts f)
  · exact sendThen_bridge_of_client ht hsend ha

/-! ### `HANDLE_CAN_FRAME` under the rest of its caller (R240, R241) -/

section
variable (c : FrameCaller)

theorem handleFrame_of_discarded (he : s.elmOk = true) (hm : s.sess.monitor = false)
    (hr : inRespRange f.id s.sess.extended = false) : handleFrame c f s = .next (s.frameDone c f) := by
  simp [handleFrame, he, hm, hr]

/-- A first frame of the response range outside monitor mode is answered with a flow control. -/
theorem handleFrame_of_flow (he : s.elmOk = true) (hm : s.sess.monitor = false)
    (hr : inRespRange f.id s.sess.extended = true) (hl : s.draws.lockOk = true) (hf : isFirstMarker f = true) :
    handleFrame c f s =
      sendThen s.inst.elmBus (flowFrame f.id s.sess.extended)
        (.frame c f (formatFrame s.inst s.sess s.draws.wideId f)) s := by
  simp [handleFrame, processFrame, he, hm, hr, hl, hf]

end

/-- What an operation does with frame `f` in `s` is the same for all of its callers: it ends, having held nothing, and
the caller's rest follows, or its flow control holds. -/
def AlikeForCallers (run : FrameCaller → CanFrame → State → Result) (f : CanFrame) (s : State) : Prop :=
  (∃ u : State, u.held = s.held ∧ ∀ c, run c f s = .next (u.frameDone c f)) ∨
    ∃ b fc line, ∀ c, run c f s = .next (holdSend b fc (.frame c f line) s)

theorem processFrame_alike (ht : s.transportOk = true) (f : CanFrame) : AlikeForCallers processFrame f s := by
  unfold AlikeForCallers processFrame
  cases isFirstMarker f && !s.sess.monitor with
  | true =>
    obtain ⟨r, u, heffect, hsend⟩ | hhold :=
      sendThen_alike ht s.inst.elmBus (flowFrame f.id s.sess.extended)
    · refine .inl ⟨(u.emit (formatFrame s.inst s.sess s.draws.wideId f)).bookkeepIfDue, ?_, fun c => hsend _⟩
      rw [State.bookkeepIfDue_held, State.emit_held, heffect.held]
    · exact .inr ⟨_, _, _, fun c => hhold _⟩
  | false => exact .inl ⟨(s.shown f).bookkeepIfDue, State.bookkeepIfDue_held _, fun c => rfl⟩

theorem handleFrame_alike (he : s.elmOk = true) (ht : s.transportOk = true) (f : CanFrame) :
    AlikeForCallers handleFrame f s := by
  simp only [AlikeForCallers, handleFrame, onElm_ok he]
  cases !s.sess.monitor && !inRespRange f.id s.sess.extended with
  | true => exact .inl ⟨s, rfl, fun c => rfl⟩
  | false =>
    cases s.draws.lockOk with
    | false => exact .inl ⟨s.logEvent .lockTimeout, rfl, fun c => rfl⟩
    | true => exact processFrame_alike ht f

/-- What `HANDLE_CAN_FRAME` leaves when it holds nothing, it leaves for any caller, whose rest then runs. -/
theorem handleFrame_of_direct (ht : s.transportOk = true) (h : handleFrame .direct f s = .next u)
    (hheld : u.held = s.held) (c : FrameCaller) : handleFrame c f s = .next (u.frameDone c f) := by
  have he : s.elmOk = true := (handleFrame_next h).1
  obtain ⟨v, _, hdone⟩ | ⟨b, fc, line, hhold⟩ := handleFrame_alike he ht f
  · rw [hdone] at h ⊢
    cases h
    rfl
  · rw [hhold] at h
    cases h
    simp [holdSend] at hheld

/-! ### The transitions of `RX_TASK_STEP` (R163) -/

theorem exec_rxTaskStep_idle (ht : s.transportOk = true) (hp : (s.bus bus).rxTask = .idle)
    (hb : bus.toNat < s.numBusses.toNat) : exec (.rxTaskStep bus) s = rxTaskReceive bus s := by
  refine (onTransport_ok ht).trans ?_
  rw [hp]
  exact if_pos ((s.validBus_iff bus).2 hb)

theorem exec_rxTaskStep_invalid (ht : s.transportOk = true) (hp : (s.bus bus).rxTask = .idle)
    (hb : s.numBusses.toNat ≤ bus.toNat) :
    exec (.rxTaskStep bus) s = .next (s.logEvent (.invalidBus bus)) := by
  refine (onTransport_ok ht).trans ?_
  rw [hp, (s.validBus_eq_false_iff bus).2 hb]
  rfl

theorem exec_rxTaskStep_bridging (ht : s.transportOk = true) (hp : (s.bus bus).rxTask = .bridging f) :
    exec (.rxTaskStep bus) s =
      bridgeFrame bus f (.rxBridge bus f) (fun t _ => t.setRxTask bus (.emulating f)) s := by
  refine (onTransport_ok ht).trans ?_
  rw [hp]

theorem exec_rxTaskStep_emulating (ht : s.transportOk = true) (hp : (s.bus bus).rxTask = .emulating f) :
    exec (.rxTaskStep bus) s = handleFrame (.rxTask bus) f s := by
  refine (onTransport_ok ht).trans ?_
  rw [hp]

/-- A bus record and then the task's phase on another bus: each bus holds its own of the two writes. -/
theorem State.bus_setRxTask_setBus (hne : bus ≠ other) (hbus : bus.toNat < s.buses.length)
    (hother : other.toNat < s.buses.length) (x : Bus) (p : RxPhase) :
    ((s.setBus other x).setRxTask bus p).bus bus = { s.bus bus with rxTask := p } ∧
      ((s.setBus other x).setRxTask bus p).bus other = x ∧
      ∀ c, c ≠ bus → c ≠ other → ((s.setBus other x).setRxTask bus p).bus c = s.bus c := by
  unfold State.setRxTask
  refine ⟨?_, ?_, fun c hcb hco => ?_⟩
  · rw [State.bus_setBus_self _ _ _ (by simpa using hbus), State.bus_setBus_ne _ _ _ _ hne]
  · rw [State.bus_setBus_ne _ _ _ _ hne.symm, State.bus_setBus_self _ _ _ hother]
  · rw [State.bus_setBus_ne _ _ _ _ hcb, State.bus_setBus_ne _ _ _ _ hco]

/-- Settles O40: the phase of the task selects the operation that runs: `RECEIVE` (`idle`), `HANDLE_BRIDGE`
(`bridging`), `HANDLE_CAN_FRAME` (`emulating`). -/
theorem receiveTaskFansOut : Obligations.ReceiveTaskFansOut := by
  unfold Obligations.ReceiveTaskFansOut
  intro s bus f ht hlen hbus
  refine ⟨fun rest hp hb hq => ?head, fun hp hl hapart => ?apart, fun other hp hl hne hpair haccepts => ?queued,
    fun hp hb hq => ?empty, fun hp hb => exec_rxTaskStep_invalid ht hp hb, fun hp hl => ?noLock,
    fun other hp hl hne hpair => ?forward, fun hp he hm hr hl hf hpasses hwaits => ?answer,
    fun u hp hdirect hheld => ?emulated, fun hp he hm hr => ?discarded⟩
  case head => rw [exec_rxTaskStep_idle ht hp hb, rxTaskReceive_of_head hbus hq]
  case empty => rw [exec_rxTaskStep_idle ht hp hb, rxTaskReceive_of_empty hq]
  case noLock =>
    rw [exec_rxTaskStep_bridging ht hp, bridgeFrame_of_noLock ht hl]
    rfl
  case apart =>
    rw [exec_rxTaskStep_bridging ht hp, bridgeFrame_of_apart ht hl hapart]
    rfl
  case queued =>
    rw [exec_rxTaskStep_bridging ht hp, bridgeFrame_of_pair ht hl hne hpair,
      sendThen_of_results ht (sendResults_of_accepts haccepts f)]
    exact ⟨_, rfl, rfl, State.bus_setRxTask_setBus hne hbus (haccepts.1.trans_le hlen) _ _⟩
  case forward =>
    rw [exec_rxTaskStep_bridging ht hp, bridgeFrame_of_pair ht hl hne hpair]
    exact ⟨fun r u hresults => sendThen_of_results ht hresults, sendThen_of_waits ht⟩
  case answer =>
    rw [exec_rxTaskStep_emulating ht hp, handleFrame_of_flow _ he hm hr hl (by simpa [isFirstMarker] using hf),
      sendThen_of_waits ht hpasses hwaits]
    rfl
  case emulated =>
    rw [exec_rxTaskStep_emulating ht hp, handleFrame_of_direct ht hdirect hheld]
    rfl
  case discarded =>
    rw [exec_rxTaskStep_emulating ht hp, handleFrame_of_discarded _ he hm hr]
    rfl

end Sys2Proof.Machine
end

section
/-! PROOFS of the family 44_fsm_engine: `FSM_STEP` follows the handlers (R177, R178), its cascade under fuel (R179), and
the isolation of the engines from each other (R180). -/

namespace Sys2Proof.Machine

/-! ### One step of one engine (R177, R178) -/

section EngineStep

variable {p : FsmParams} {e : FsmEngine} {h : FsmHandler} {c : Byte} {next out user : Nat}

theorem engineStep_of_faulted (hf : e.faulted = true) (free : Nat) :
    engineStep p e c free = .fault .fsmInstance := by
  simp [engineStep, hf]

/-- A chain of redirects that stabilises within the fuel moves the engine to where it ends. -/
theorem engineStep_of_stable {n last user' : Nat} (hl : fsmLookup p.registry e.current = some h)
    (ht : fsmTick h e.user c = (next, out, user)) (hf : e.faulted = false) (hn : n ≤ cascadeFuel p.registry)
    (hchain : FsmChain p.registry n e.current next user (.stable last user')) (free : Nat) :
    engineStep p e c free = .done { current := last, user := user', faulted := false } out none := by
  simp [engineStep, hf, hl, ht, cascade_of_chain hchain _ hn]

/-- A chain that meets an unregistered target within the fuel leaves the engine at fault on the last identity. -/
theorem engineStep_of_unknown {n last target : Nat} (hl : fsmLookup p.registry e.current = some h)
    (ht : fsmTick h e.user c = (next, out, user)) (hf : e.faulted = false) (hn : n ≤ cascadeFuel p.registry)
    (hchain : FsmChain p.registry n e.current next user (.unknown last target)) (free : Nat) :
    engineStep p e c free = .done { current := last, user := free, faulted := true } out (some target) := by
  simp [engineStep, hf, hl, ht, cascade_of_chain hchain _ hn]

end EngineStep

theorem one_le_cascadeFuel (reg : FsmRegistry) : 1 ≤ cascadeFuel reg := Nat.le_add_left 1 _

/-! ### `FSM_STEP` of a numbered engine (R180) -/

section FsmStep

variable {s : State} {k : Nat} {c : Byte} {p : FsmParams} {e e' : FsmEngine} {out : Nat} {unknown : Option Nat}

theorem exec_fsmStep (x : EngineByte) (s : State) : exec (.fsmStep x) s = execFsmStep x s := rfl

theorem exec_fsmStep_of_done (hp : s.inst.engines[k]? = some p) (he : s.engines[k]? = some e)
    (hstep : engineStep p e c s.draws.fsmUser = .done e' out unknown) :
    exec (.fsmStep ⟨k, c⟩) s =
      .next
        { s with
          engines := s.engines.set k e', log := s.log ++ (unknown.map LogEvent.unknownState).toList
          answers := s.answers ++ [.sideOutput out] } := by
  simp only [exec_fsmStep, execFsmStep, hp, he, hstep]
  cases unknown with
  | none => simp [State.answer]
  | some target => rfl

theorem exec_fsmStep_of_fault {f : Fault} (hp : s.inst.engines[k]? = some p) (he : s.engines[k]? = some e)
    (hstep : engineStep p e c s.draws.fsmUser = .fault f) : exec (.fsmStep ⟨k, c⟩) s = .fault f := by
  simp only [exec_fsmStep, execFsmStep, hp, he, hstep]

theorem exec_fsmStep_of_stable {h : FsmHandler} {next user n last user' : Nat} (hp : s.inst.engines[k]? = some p)
    (he : s.engines[k]? = some e) (hl : fsmLookup p.registry e.current = some h)
    (ht : fsmTick h e.user c = (next, out, user)) (hf : e.faulted = false) (hn : n ≤ cascadeFuel p.registry)
    (hchain : FsmChain p.registry n e.current next user (.stable last user')) :
    exec (.fsmStep ⟨k, c⟩) s =
      .next
        { s with
          engines := s.engines.set k { current := last, user := user', faulted := false }
          answers := s.answers ++ [.sideOutput out] } := by
  simpa using exec_fsmStep_of_done hp he (engineStep_of_stable hl ht hf hn hchain _)

theorem exec_fsmStep_of_unknown {h : FsmHandler} {next user n last target : Nat} (hp : s.inst.engines[k]? = some p)
    (he : s.engines[k]? = some e) (hl : fsmLookup p.registry e.current = some h)
    (ht : fsmTick h e.user c = (next, out, user)) (hf : e.faulted = false) (hn : n ≤ cascadeFuel p.registry)
    (hchain : FsmChain p.registry n e.current next user (.unknown last target)) :
    exec (.fsmStep ⟨k, c⟩) s =
      .next
        { s with
          engines := s.engines.set k { current := last, user := s.draws.fsmUser, faulted := true }
          log := s.log ++ [.unknownState target], answers := s.answers ++ [.sideOutput out] } :=
  exec_fsmStep_of_done hp he (engineStep_of_unknown hl ht hf hn hchain _)

theorem exec_fsmStep_of_absent (h : s.inst.engines[k]? = none ∨ s.engines[k]? = none) :
    exec (.fsmStep ⟨k, c⟩) s = .refused .noEngine := by
  rw [exec_fsmStep, execFsmStep]
  split
  · next p e hp he => simp [hp, he] at h
  · rfl

end FsmStep

/-- Settles O41: staying, entering and an unknown target are the chains of no and of one redirect. -/
theorem fsmStepFollowsTheHandlers : Obligations.FsmStepFollowsTheHandlers := by
  unfold Obligations.FsmStepFollowsTheHandlers
  intro s k c p e h hp he hl
  refine ⟨fun hf => exec_fsmStep_of_fault hp he (engineStep_of_faulted hf _), fun next out user ht hf => ?_⟩
  refine ⟨fun hstay => ?stays, fun h' user' hne hl' henter => ?enters, fun hne hno => ?unregistered,
    fun _ _ _ => exec_fsmStep_of_stable hp he hl ht hf, fun _ _ _ => exec_fsmStep_of_unknown hp he hl ht hf⟩
  case stays => exact exec_fsmStep_of_stable hp he hl ht hf (Nat.zero_le _) (hstay ▸ .stay next user)
  case enters =>
    exact exec_fsmStep_of_stable hp he hl ht hf (one_le_cascadeFuel _)
      (.move 0 _ _ _ _ _ h h' _ hne hl hl' henter (.stay next user'))
  case unregistered => exact exec_fsmStep_of_unknown hp he hl ht hf (Nat.zero_le _) (.unknown _ _ _ hne hno)

/-- Settles O42: what the step can do is one `engineStep`, which any engine alike takes as well. -/
theorem fsmIsIsolated : Obligations.FsmIsIsolated := by
  unfold Obligations.FsmIsIsolated
  refine ⟨fun s t k c hnext => ?_, fun s k c => exec_fsmStep_of_absent⟩
  obtain ⟨p, e, e', out, unknown, hp, he, hstep, rfl⟩ := execFsmStep_next hnext
  refine ⟨rfl, List.length_set .., fun j hj => List.getElem?_set_ne hj.symm, fun u j hup hue hdraw => ?_⟩
  have hj : u.engines[j]? = some e := hue.trans he
  refine ⟨_, .sideOutput out, (unknown.map LogEvent.unknownState).toList,
    exec_fsmStep_of_done (hup.trans hp) hj (hdraw ▸ hstep), ?_, rfl, rfl, rfl, rfl⟩
  calc (u.engines.set j e')[j]?
      = some e' := List.getElem?_set_self (List.getElem?_eq_some_iff.1 hj).1
    _ = (s.engines.set k e')[k]? := (List.getElem?_set_self (List.getElem?_eq_some_iff.1 he).1).symm

theorem mem_of_fsmLookup {reg : FsmRegistry} {id : Nat} {h : FsmHandler} (hl : fsmLookup reg id = some h) :
    (id, h) ∈ reg := by
  obtain ⟨⟨i, g⟩, hfind, rfl⟩ := Option.map_eq_some_iff.1 hl
  obtain rfl : i = id := by simpa using List.find?_some hfind
  exact List.mem_of_find?_eq_some hfind

/-! ### The loop of R177 as an iteration

A turn of the loop leaves the current identity and enters the target. Between the two it depends on nothing but the
target and the handler state that `exit()` left, a pair with at most `cascadeFuel reg - 1` values: a loop that spends
the fuel has met one such pair twice, and goes round for ever (R179). -/

/-- Where the loop stands at its test. -/
structure LoopPoint where
  current : Nat
  next : Nat
  user : Nat

namespace LoopPoint

variable {reg : FsmRegistry} {x y : LoopPoint} {h : FsmHandler} {fuel : Nat}

/-- The handler the loop enters, if it goes on: the target's, where that is registered and not the current identity. -/
def target (reg : FsmRegistry) (x : LoopPoint) : Option FsmHandler :=
  if x.next = x.current then none else fsmLookup reg x.next

/-- The target, and the handler state after `exit()`. -/
def exited (reg : FsmRegistry) (x : LoopPoint) : Nat × Nat :=
  (x.next, match fsmLookup reg x.current with
    | some old => fsmExit old x.user
    | none => x.user)

/-- The next test of the loop, which is this one where the loop has stopped. -/
def turn (reg : FsmRegistry) (x : LoopPoint) : LoopPoint :=
  match x.target reg with
  | some h => ⟨x.next, (fsmEnter h (x.exited reg).2).1, (fsmEnter h (x.exited reg).2).2⟩
  | none => x

/-- The loop of the model, from here. -/
def run (reg : FsmRegistry) (fuel : Nat) (x : LoopPoint) : Cascade := cascade reg fuel x.current x.next x.user

theorem target_eq_some_iff : x.target reg = some h ↔ x.next ≠ x.current ∧ fsmLookup reg x.next = some h := by
  simp [target]

theorem turn_of_target (ht : x.target reg = some h) :
    x.turn reg = ⟨x.next, (fsmEnter h (x.exited reg).2).1, (fsmEnter h (x.exited reg).2).2⟩ := by
  simp [turn, ht]

theorem turn_of_stopped (ht : x.target reg = none) : x.turn reg = x := by
  simp [turn, ht]

theorem run_of_stopped (ht : x.target reg = none) : x.run reg fuel ≠ .hang := by
  unfold run cascade
  by_cases heq : x.next = x.current
  · simp [heq]
  · have hno : fsmLookup reg x.next = none := by simpa [target, heq] using ht
    simp [heq, hno]

theorem run_zero_of_target (ht : x.target reg = some h) : x.run reg 0 = .hang := by
  obtain ⟨hne, hl⟩ := target_eq_some_iff.1 ht
  simp [run, cascade, hne, hl]

theorem run_succ_of_target (ht : x.target reg = some h) : x.run reg (fuel + 1) = (x.turn reg).run reg fuel := by
  obtain ⟨hne, hl⟩ := target_eq_some_iff.1 ht
  rw [turn_of_target ht]
  conv_lhs => unfold run cascade
  cases hold : fsmLookup reg x.current with
  | none => simp [run, exited, hne, hl, hold]
  | some old => simp [run, exited, hne, hl, hold]

/-- The fuel is spent where, after as many turns, the loop would still go on. -/
theorem run_eq_hang_iff : x.run reg fuel = .hang ↔ ((turn reg)^[fuel] x).target reg ≠ none := by
  induction fuel generalizing x with
  | zero =>
    cases ht : x.target reg with
    | none => simp [ht, run_of_stopped ht]
    | some h => simp [ht, run_zero_of_target ht]
  | succ fuel ih =>
    cases ht : x.target reg with
    | none =>
      have hfix : (turn reg)^[fuel + 1] x = x := Function.iterate_fixed (turn_of_stopped ht) _
      simp [hfix, ht, run_of_stopped ht]
    | some h => rw [run_succ_of_target ht, ih, Function.iterate_succ_apply]

/-- A loop that goes on after `n` turns went on at every test before. -/
theorem target_ne_none_of_le {m n : Nat} (hmn : m ≤ n) (hn : ((turn reg)^[n] x).target reg ≠ none) :
    ((turn reg)^[m] x).target reg ≠ none := by
  intro hm
  have hfix : (turn reg)^[n] x = (turn reg)^[m] x := by
    obtain ⟨d, rfl⟩ := Nat.exists_eq_add_of_le' hmn
    rw [Function.iterate_add_apply, Function.iterate_fixed (turn_of_stopped hm)]
  exact hn (hfix ▸ hm)

/-- A turn depends on the target and the exited handler state only. -/
theorem turn_congr (hx : x.target reg ≠ none) (hy : y.target reg ≠ none) (heq : x.exited reg = y.exited reg) :
    x.turn reg = y.turn reg := by
  obtain ⟨h, hx⟩ := Option.ne_none_iff_exists'.1 hx
  obtain ⟨h', hy⟩ := Option.ne_none_iff_exists'.1 hy
  have hnext : x.next = y.next := congrArg Prod.fst heq
  obtain rfl : h = h' := by
    have hlx := (target_eq_some_iff.1 hx).2
    rw [hnext, (target_eq_some_iff.1 hy).2] at hlx
    exact (Option.some.inj hlx).symm
  rw [turn_of_target hx, turn_of_target hy, heq, hnext]

/-! #### The values a turn can pass through -/

/-- The handler states that the rows of a registry set. -/
def rowUsers (reg : FsmRegistry) : List Nat :=
  reg.flatMap fun p =>
    p.2.tickRows.map FsmTickRow.userAfter ++ p.2.enterRows.map FsmEnterRow.userAfter ++
      p.2.exitRows.map FsmExitRow.userAfter

theorem length_rowUsers (reg : FsmRegistry) : (rowUsers reg).length = fsmRows reg := by
  simp [rowUsers, fsmRows, List.length_flatMap, Nat.add_assoc]

/-- The handler states of a loop that starts with `user`. -/
def users (reg : FsmRegistry) (user : Nat) : Finset Nat := insert user (rowUsers reg).toFinset

theorem mem_users {id user v : Nat} (hl : fsmLookup reg id = some h)
    (hv : v ∈ h.enterRows.map FsmEnterRow.userAfter ∨ v ∈ h.exitRows.map FsmExitRow.userAfter) :
    v ∈ users reg user := by
  refine Finset.mem_insert_of_mem (List.mem_toFinset.2 (List.mem_flatMap.2 ⟨(id, h), mem_of_fsmLookup hl, ?_⟩))
  rcases hv with hv | hv <;> simp only [List.mem_append, hv, or_true, true_or]

theorem fsmEnter_mem_users {id user v : Nat} (hl : fsmLookup reg id = some h) (hv : v ∈ users reg user) :
    (fsmEnter h v).2 ∈ users reg user := by
  unfold fsmEnter
  split
  · next r hr => exact mem_users hl (.inl (List.mem_map_of_mem (List.mem_of_find?_eq_some hr)))
  · exact hv

theorem fsmExit_mem_users {id user v : Nat} (hl : fsmLookup reg id = some h) (hv : v ∈ users reg user) :
    fsmExit h v ∈ users reg user := by
  unfold fsmExit
  split
  · next r hr => exact mem_users hl (.inr (List.mem_map_of_mem (List.mem_of_find?_eq_some hr)))
  · exact hv

theorem exited_mem_users {user : Nat} (hx : x.user ∈ users reg user) : (x.exited reg).2 ∈ users reg user := by
  unfold exited
  dsimp only
  split
  · next old hl => exact fsmExit_mem_users hl hx
  · exact hx

theorem turn_mem_users {user : Nat} (hx : x.user ∈ users reg user) : (x.turn reg).user ∈ users reg user := by
  cases ht : x.target reg with
  | none => rwa [turn_of_stopped ht]
  | some h =>
    rw [turn_of_target ht]
    exact fsmEnter_mem_users (target_eq_some_iff.1 ht).2 (exited_mem_users hx)

theorem iterate_turn_mem_users (x : LoopPoint) (n : Nat) : ((turn reg)^[n] x).user ∈ users reg x.user := by
  induction n with
  | zero => exact Finset.mem_insert_self ..
  | succ n ih => rw [Function.iterate_succ_apply']; exact turn_mem_users ih

/-- The pairs of a registered target and a handler state. -/
def exits (reg : FsmRegistry) (user : Nat) : Finset (Nat × Nat) := (reg.map Prod.fst).toFinset ×ˢ users reg user

theorem exited_mem_exits (n : Nat) (hn : ((turn reg)^[n] x).target reg ≠ none) :
    ((turn reg)^[n] x).exited reg ∈ exits reg x.user := by
  obtain ⟨h, ht⟩ := Option.ne_none_iff_exists'.1 hn
  have hmem := mem_of_fsmLookup (target_eq_some_iff.1 ht).2
  exact Finset.mem_product.2 ⟨List.mem_toFinset.2 (List.mem_map_of_mem (f := Prod.fst) hmem),
    exited_mem_users (iterate_turn_mem_users x n)⟩

theorem card_exits_lt (reg : FsmRegistry) (user : Nat) : (exits reg user).card < cascadeFuel reg := by
  have hids : (reg.map Prod.fst).toFinset.card ≤ reg.length := by
    simpa using (reg.map Prod.fst).toFinset_card_le
  have husers : (users reg user).card ≤ fsmRows reg + 1 :=
    (Finset.card_insert_le _ _).trans (by simpa [length_rowUsers] using (rowUsers reg).toFinset_card_le)
  rw [exits, Finset.card_product]
  exact Nat.lt_succ_of_le (Nat.mul_le_mul hids husers)

/-! #### A loop that spends the fuel goes round for ever -/

/-- By the pigeonhole principle two turns within the fuel start from the same pair, so their ends are one point. -/
theorem exists_repeat (hhang : ((turn reg)^[cascadeFuel reg] x).target reg ≠ none) :
    ∃ i j, i < j ∧ j ≤ cascadeFuel reg ∧ (turn reg)^[i] x = (turn reg)^[j] x := by
  have goesOn : ∀ n ∈ Finset.range (cascadeFuel reg), ((turn reg)^[n] x).target reg ≠ none :=
    fun n hn => target_ne_none_of_le (Finset.mem_range.1 hn).le hhang
  obtain ⟨i, hi, j, hj, hij, heq⟩ := Finset.exists_ne_map_eq_of_card_lt_of_maps_to
    (s := Finset.range (cascadeFuel reg)) (f := fun n => ((turn reg)^[n] x).exited reg)
    ((card_exits_lt reg x.user).trans_eq (Finset.card_range _).symm) fun n hn => exited_mem_exits n (goesOn n hn)
  have hturn : (turn reg)^[i + 1] x = (turn reg)^[j + 1] x := by
    simpa only [Function.iterate_succ_apply'] using turn_congr (goesOn i hi) (goesOn j hj) heq
  rw [Finset.mem_range] at hi hj
  rcases Nat.lt_or_gt_of_ne hij with hlt | hgt
  · exact ⟨i + 1, j + 1, by omega, hj, hturn⟩
  · exact ⟨j + 1, i + 1, by omega, hi, hturn.symm⟩

/-- A point that the loop comes back to is met again after any number of turns. -/
theorem target_ne_none_of_repeat {i j : Nat} (hij : i < j) (heq : (turn reg)^[i] x = (turn reg)^[j] x)
    (hi : ((turn reg)^[i] x).target reg ≠ none) (n : Nat) : ((turn reg)^[n] x).target reg ≠ none := by
  have hperiod : Function.IsPeriodicPt (turn reg) (j - i) ((turn reg)^[i] x) := by
    rw [Function.IsPeriodicPt, Function.IsFixedPt, ← Function.iterate_add_apply, Nat.sub_add_cancel hij.le, heq]
  have hagain : (turn reg)^[n * (j - i) + i] x = (turn reg)^[i] x := by
    rw [Function.iterate_add_apply]
    exact hperiod.const_mul n
  have hle : n ≤ n * (j - i) + i := (Nat.le_mul_of_pos_right n (Nat.sub_pos_of_lt hij)).trans (Nat.le_add_right ..)
  exact target_ne_none_of_le hle (hagain ▸ hi)

end LoopPoint

/-- Settles O43: a loop that spends the fuel comes back to a point where it has been, and goes round from there. -/
theorem fuelExhaustionIsAHang : Obligations.FuelExhaustionIsAHang := by
  unfold Obligations.FuelExhaustionIsAHang
  intro reg current next user hhang fuel
  have hgoes := (LoopPoint.run_eq_hang_iff (x := ⟨current, next, user⟩)).1 hhang
  obtain ⟨i, j, hij, hj, heq⟩ := LoopPoint.exists_repeat hgoes
  have hi := LoopPoint.target_ne_none_of_le (hij.le.trans hj) hgoes
  exact LoopPoint.run_eq_hang_iff.2 (LoopPoint.target_ne_none_of_repeat hij heq hi fuel)

end Sys2Proof.Machine
end

section
/-! PROOFS of the family 45_elm_commands: a line from its bytes to its command (R190 to R192, R217), the AT commands
(R193 to R212), the lines that are no command (R213, R214, R216) and the PID requests (R215, R218). -/

namespace Sys2Proof

/-! ### Lines that are no PID request (R75, R78) -/

theorem isHex_upperByte (c : Byte) : isHex (upperByte c) = isHex c := by
  obtain ⟨hlo, hhi, hc⟩ | hc := upperByte_cases c
  · rw [Bool.eq_iff_iff]
    simp only [isHex, hc, Bool.or_eq_true, Bool.and_eq_true, decide_eq_true_eq]
    omega
  · rw [hc]

theorem all_isHex_upper (s : Bytes) : (upper s).all isHex = s.all isHex := by
  simp only [upper, List.all_map, Function.comp_def, isHex_upperByte]

open Machine (startsExchange)

theorem startsExchange_of_parseArg {row : AtRow} {rest : Bytes} {c : LineCmd} (h : parseArg row rest = some c) :
    startsExchange c.toInstr = false := by
  cases row with
  | atsh =>
    simp only [parseArg] at h
    split at h
    · obtain ⟨_, hc⟩ := Option.ite_none_right_eq_some.1 h
      cases hc
      rfl
    · cases h
  | atdesc | atdp | atpc | atrv | at1 | atz | ati =>
    cases h
    rfl
  | atsp | atat | atst | atma | ate | atm | atl | ats | ath | atd =>
    obtain ⟨_, _, rfl⟩ := Option.map_eq_some_iff.1 h
    rfl

theorem startsExchange_decodeAt (u : Bytes) : startsExchange (decodeAt u).toInstr = false := by
  unfold decodeAt
  split
  · rfl
  · next row rest _ =>
    cases h : parseArg row rest with
    | none => rfl
    | some c => exact startsExchange_of_parseArg h

/-- Only a line of hexadecimal digits is a PID request. -/
theorem startsExchange_classify_of_not_hex {s : Bytes} (h : ∃ v ∈ s, isHex v = false) :
    startsExchange (classify s).toInstr = false := by
  have hhex : (upper s).all isHex = false := by
    rw [all_isHex_upper, List.all_eq_false]
    simpa using h
  simp only [classify, hhex]
  split
  · exact startsExchange_decodeAt _
  · rfl

end Sys2Proof

namespace Sys2Proof.Machine

variable {s u : State}

/-! ### AT commands (R193 to R212) -/

theorem atReply_ok (he : s.elmOk = true) (sess : ElmSession) (info : Bytes) :
    atReply sess info s = .next { s with sess := sess, hostOut := s.hostOut ++ (info ++ okTerm sess.linefeed) } :=
  atReply_next.2 ⟨he, rfl⟩

/-- Settles O44: each of the eight is `atReply` with the session that differs in its flag. -/
theorem atFlagCommands : Obligations.AtFlagCommands := by
  unfold Obligations.AtFlagCommands
  intro s on he p hp
  have hreply : exec p.1 s = atReply p.2 [] s := by
    simp only [List.mem_cons, List.not_mem_nil, or_false] at hp
    obtain rfl | rfl | rfl | rfl | rfl | rfl | rfl | rfl := hp <;> rfl
  exact hreply.trans (atReply_ok he p.2 [])

theorem protocolExtended_eq (d : Protocol) : protocolExtended d = (d == .p7 || d == .p9) := by cases d <;> rfl

/-- Four times a byte fits a word, so the timeout is exact. -/
theorem timeoutOfByte_eq {hh : Byte} {ms : Word32} (h : ms.toNat = hh.toNat * 4) : hh.setWidth 32 * 4 = ms := by
  bv_omega

/-- Settles O45: each of the four is `atReply` with its new session. -/
theorem atValueCommands : Obligations.AtValueCommands := by
  unfold Obligations.AtValueCommands
  intro s he
  refine ⟨fun d => ?_, fun hh ms hms => ?_, fun h => atReply_ok he _ [], atReply_ok he _ []⟩
  · rw [← protocolExtended_eq]
    exact atReply_ok he _ []
  · rw [← timeoutOfByte_eq hms]
    exact atReply_ok he _ []

/-- Settles O46: each of the seven is `atReply` with the session as it is and its text. -/
theorem atInfoCommands : Obligations.AtInfoCommands := by
  unfold Obligations.AtInfoCommands
  intro s he p hp
  have hreply : exec p.1 s = atReply s.sess p.2 s := by
    simp only [List.mem_cons, List.not_mem_nil, or_false] at hp
    obtain rfl | rfl | rfl | rfl | rfl | rfl | rfl := hp <;> rfl
  rw [hreply, atReply_ok he, List.append_assoc]

/-! ### Lines that are no command (R213, R214, R216) -/

/-- Settles O47: the log event of the line, then its reply. -/
theorem badLinesAreAnswered : Obligations.BadLinesAreAnswered := by
  unfold Obligations.BadLinesAreAnswered
  intro s u he
  refine ⟨fun p hp => ?_, onElm_ok he⟩
  have hbad : exec p.1 s = onElm s (.next ((s.raiseError p.2 none).emit (unknownReply s))) := by
    simp only [List.mem_cons, List.not_mem_nil, or_false] at hp
    obtain rfl | rfl := hp <;> rfl
  exact hbad.trans (onElm_ok he)

/-! ### The PID requests (R215, R218) -/

theorem pidRequest_of_ready (h : s.requestReady) (data : Payload) (mode : Byte) (pid : BitVec 16) (expected : Byte) :
    pidRequest data mode pid expected s =
      sendThen s.inst.elmBus (requestFrame s.sess data) (.pid mode pid expected) s := by
  obtain ⟨_, he, hfree, hheader⟩ := h
  have hfits : ¬ ((!s.sess.extended && 0x7FF < s.sess.headerId.toNat) = true) := by
    obtain hx | hx := hheader <;> simp [hx]
  simp only [pidRequest, onElm_ok he, hfree, Bool.false_eq_true, if_false, if_neg hfits]

/-- The four PID forms: the instruction, its payload (R79), and the pid and the response count it arms with. -/
def pidForms (mode pid : Byte) (pid2 : BitVec 16) (expected : BitVec 4) :
    List (Instr × Payload × BitVec 16 × Byte) :=
  [ (.pid4 mode pid, pidPayload1 mode pid, pid.setWidth 16, 0),
    (.pid5 mode pid expected, pidPayload1 mode pid, pid.setWidth 16, expected.setWidth 8),
    (.pid6 mode pid2, pidPayload2 mode pid2, pid2, 0),
    (.pid7 mode pid2 expected, pidPayload2 mode pid2, pid2, expected.setWidth 8) ]

section
variable {mode pid : Byte} {pid2 : BitVec 16} {expected : BitVec 4} {p : Instr × Payload × BitVec 16 × Byte}

theorem exec_of_mem_pidForms (hp : p ∈ pidForms mode pid pid2 expected) (s : State) :
    exec p.1 s = pidRequest p.2.1 mode p.2.2.1 p.2.2.2 s := by
  simp only [pidForms, List.mem_cons, List.not_mem_nil, or_false] at hp
  obtain rfl | rfl | rfl | rfl := hp <;> rfl

/-- A request that can start is armed whatever `SEND` answers (D23). -/
theorem exec_pidForm_of_results {r : Int} (hp : p ∈ pidForms mode pid pid2 expected) (h : s.requestReady)
    (hsend : s.sendResults s.inst.elmBus (requestFrame s.sess p.2.1) r u) :
    exec p.1 s = .next { u with pend := armedRequest mode p.2.2.1 p.2.2.2 s.clock } := by
  have hclock : u.clock = s.clock := (sendEffect_env (sendStart_effect (sendStart_of_results hsend))).clock
  rw [exec_of_mem_pidForms hp, pidRequest_of_ready h, sendThen_of_results h.1 hsend, finishSend, hclock]

theorem exec_pidForm_of_waits (hp : p ∈ pidForms mode pid pid2 expected) (h : s.requestReady)
    (hpasses : s.sendPasses s.inst.elmBus) (hwaits : s.sendWaits s.inst.elmBus) :
    exec p.1 s =
      .next
        { s with
          held :=
            s.held ++ [.send s.inst.elmBus (requestFrame s.sess p.2.1) (.pid mode p.2.2.1 p.2.2.2)] } := by
  rw [exec_of_mem_pidForms hp, pidRequest_of_ready h, sendThen_of_waits h.1 hpasses hwaits, holdSend]

end

/-- Settles O48: a bus that accepts is a `SEND` that ends with result 0. -/
theorem pidRequestSendsAndArms : Obligations.PidRequestSendsAndArms := by
  unfold Obligations.PidRequestSendsAndArms
  intro s mode pid pid2 expected hready haccepts p hp
  exact exec_pidForm_of_results hp hready (sendResults_of_accepts haccepts _)

/-- Settles O49: `SEND` ends with an error, or holds. -/
theorem pidRequestArmsWithoutTheFrame : Obligations.PidRequestArmsWithoutTheFrame := by
  unfold Obligations.PidRequestArmsWithoutTheFrame
  rintro s mode pid pid2 expected hready p hp f rfl
  exact ⟨fun r u hsend _ => exec_pidForm_of_results hp hready hsend, exec_pidForm_of_waits hp hready⟩

/-- Settles O50: the checks of `PID_REQUEST`, in their order. -/
theorem pidRequestRefused : Obligations.PidRequestRefused := by
  unfold Obligations.PidRequestRefused
  intro s mode pid pid2 expected he i hi
  obtain ⟨p, hp, rfl⟩ := List.mem_map.1 (show i ∈ (pidForms mode pid pid2 expected).map Prod.fst from hi)
  rw [exec_of_mem_pidForms hp]
  refine ⟨fun hout => ?_, fun hfree hstandard hwide => ?_⟩
  · simp [pidRequest, he, hout]
  · simp [pidRequest, he, hfree, hstandard, hwide]

/-! ### From bytes to a command (R190 to R192, R217) -/

theorem exec_toInstr (c : LineCmd) (s : State) : exec c.toInstr s = execCommand c s := by cases c <;> rfl

theorem exec_repeatLine_of_nil (he : s.elmOk = true) (h : s.lastCmd = []) : exec .repeatLine s = .next s := by
  refine (onElm_ok he).trans ?_
  rw [h]
  rfl

theorem exec_repeatLine_of_ne_nil (he : s.elmOk = true) (h : s.lastCmd ≠ []) :
    exec .repeatLine s = exec (classify s.lastCmd).toInstr s := by
  rw [exec_toInstr]
  exact (onElm_ok he).trans (if_neg (by simpa using h))

/-- `DISPATCH_LINE` runs the instruction its line decodes to, a non-empty line being remembered first. -/
theorem exec_dispatchLine (he : s.elmOk = true) (line : Bytes) :
    exec (.dispatchLine line) s =
      exec (decodeLine line) { s with lastCmd := if line = [] then s.lastCmd else line } := by
  refine (onElm_ok he).trans ?_
  by_cases h : line = []
  · subst h
    rfl
  · rw [decodeLine_of_ne_nil h, exec_toInstr, if_neg h]
    exact if_neg (by simpa using h)

theorem exec_dispatchLine_of_ne_nil (he : s.elmOk = true) {line : Bytes} (h : line ≠ []) :
    exec (.dispatchLine line) s = exec (classify line).toInstr { s with lastCmd := line } := by
  rw [exec_dispatchLine he, decodeLine_of_ne_nil h, if_neg h]

/-- A command that is no PID request completes, and writes the session, the log and the host stream alone. -/
theorem exec_toInstr_of_not_startsExchange (he : s.elmOk = true) {c : LineCmd}
    (h : startsExchange c.toInstr = false) :
    ∃ sess log out, exec c.toInstr s = .next { s with sess := sess, log := log, hostOut := out } := by
  cases c with
  | pid4 | pid5 | pid6 | pid7 => cases h
  | unknownAt | malformedAt | invalidLine => exact ⟨s.sess, _, _, onElm_ok he⟩
  | _ => exact ⟨_, s.log, _, atReply_ok he _ _⟩

/-- Settles O51: `DISPATCH_LINE` by the decoded line, and a line with another byte than a hexadecimal digit is no PID
request. -/
theorem linesAreDispatched : Obligations.LinesAreDispatched := by
  unfold Obligations.LinesAreDispatched
  intro s he
  refine ⟨fun line => exec_dispatchLine_of_ne_nil he, exec_dispatchLine he [], exec_repeatLine_of_nil he,
    exec_repeatLine_of_ne_nil he, fun line hline => ?_⟩
  have hpid := startsExchange_classify_of_not_hex hline
  have hne : line ≠ [] := by
    obtain ⟨v, hv, _⟩ := hline
    exact List.ne_nil_of_mem hv
  constructor
  · obtain ⟨sess, log, out, hexec⟩ := exec_toInstr_of_not_startsExchange (s := { s with lastCmd := line }) he hpid
    exact ⟨_, (exec_dispatchLine_of_ne_nil he hne).trans hexec, rfl, rfl, rfl⟩
  · rintro rfl
    obtain ⟨sess, log, out, hexec⟩ := exec_toInstr_of_not_startsExchange he hpid
    exact ⟨_, (exec_repeatLine_of_ne_nil he hne).trans hexec, rfl, rfl⟩

theorem State.echoed_eq (s : State) :
    s.echoed = { s with hostOut := if s.sess.echo then s.hostOut ++ s.draws.echo else s.hostOut } := by
  unfold State.echoed
  split <;> rfl

theorem State.echoed_of_off (h : s.sess.echo = false) : s.echoed = s := by
  rw [State.echoed_eq, h]
  rfl

@[simp] theorem State.echoed_elmOk (s : State) : s.echoed.elmOk = s.elmOk := by rw [State.echoed_eq]

@[simp] theorem State.echoed_lastCmd (s : State) : s.echoed.lastCmd = s.lastCmd := by rw [State.echoed_eq]

theorem State.with_lineBuf_self {line : Bytes} (h : s.lineBuf = line) : { s with lineBuf := line } = s := by
  subst h
  rfl

theorem exec_hostByte_of_terminator (he : s.elmOk = true) {c : Byte} (hc : isTerminator c = true) :
    exec (.hostByte c) s = exec (.dispatchLine s.lineBuf) { s.echoed with lineBuf := [] } :=
  (onElm_ok he).trans (if_pos hc)

/-- Settles O12: the terminator dispatches the line buffer. -/
theorem terminatorRunsTheDecodedLine : Obligations.TerminatorRunsTheDecodedLine := by
  unfold Obligations.TerminatorRunsTheDecodedLine
  intro s c he hc hecho
  rw [exec_hostByte_of_terminator he hc, State.echoed_of_off hecho]
  exact exec_dispatchLine (s := { s with lineBuf := [] }) he s.lineBuf

/-- Settles O52: an ordinary byte by the room in the line buffer, a terminator by the empty line it dispatches. -/
theorem hostByteCollectsTheLine : Obligations.HostByteCollectsTheLine := by
  unfold Obligations.HostByteCollectsTheLine
  intro s c he
  refine ⟨fun hc hroom => ?_, fun hc hfull => ?_, fun hc hbuf hlast => ?_⟩
  · refine (onElm_ok he).trans ?_
    rw [hc, if_pos hroom, State.echoed_eq]
    rfl
  · refine (onElm_ok he).trans ?_
    rw [hc, if_neg (Nat.not_lt.2 hfull)]
    rfl
  · have hclear : { s.echoed with lineBuf := [] } = s.echoed :=
      State.with_lineBuf_self (by rw [State.echoed_eq]; exact hbuf)
    rw [← State.echoed_eq, exec_hostByte_of_terminator he hc, hclear, hbuf, exec_dispatchLine (by simpa using he)]
    exact exec_repeatLine_of_nil (by simpa using he) (by simpa using hlast)

end Sys2Proof.Machine
end

section
/-! PROOFS of the family 46_elm_response: the text line of a received frame (R242 to R246), the estimator (R249), the
poll and the close-out (R250, R251), what books a response (R241, R248), and the pending request over an instruction and
a step (R194, R252, R319). -/

namespace Sys2Proof.Machine

variable {s t u : State} {b : BusIx} {f : CanFrame} {k : SendCont} {r : Int}

/-! ### The parts of the text line (R243 to R246) -/

/-- Each byte as two digits, the separator between two bytes. -/
theorem hexBytes_eq (sep : Bytes) :
    ∀ bs : Bytes, hexBytes sep bs = ((bs.map fun v => hexN 2 v.toNat).intersperse sep).flatten
  | [] => rfl
  | [v] => by simp [hexBytes]
  | v :: w :: bs => by simp [hexBytes, hexBytes_eq sep (w :: bs)]

theorem idText_eq (sess : ElmSession) (wide : Bytes) (f : CanFrame) :
    idText sess wide f =
      if f.ext then
        hexN 2 (f.id.toNat / 2 ^ 24) ++ spaceText sess ++ hexN 2 (f.id.toNat / 2 ^ 16) ++ spaceText sess ++
          hexN 2 (f.id.toNat / 2 ^ 8) ++ spaceText sess ++ hexN 2 f.id.toNat ++ spaceText sess
      else (if f.id.toNat < 0x1000 then hexN 3 f.id.toNat else wide) ++ spaceText sess := by
  simp [idText]

theorem isMulti_iff (f : CanFrame) : isMulti f = true ↔ 0x10 ≤ f.data.b0.toNat := decide_eq_true_iff

section
variable (p : Params) (sess : ElmSession) (wide : Bytes)

/-- The line of a single frame (R242): no mark, the length after the identifier or the digit in its place. -/
theorem formatFrame_of_single (h : isMulti f = false) :
    formatFrame p sess wide f =
      (if sess.headers then idText sess wide f ++ hexN 2 f.dlc.val ++ spaceText sess else []) ++
        (if sess.headers = false ∧ sess.dlcDisplay = true then hexN 1 (firstByte f) ++ spaceText sess else []) ++
        hexBytes (spaceText sess) ((f.data.toList.take (min (firstByte f + 1) f.dlc.val)).drop 1) ++ [0x0D] := by
  simp [formatFrame, framePrefix, frameHeader, frameDlcDigit, frameData, dataStart, dataEnd, h]

theorem isLiteralFirst_iff (f : CanFrame) : isLiteralFirst f = true ↔ f.data.b0 = 0x10 := beq_iff_eq

theorem seqNibble_of_literal (h : f.data.b0 = 0x10) : seqNibble f = 0 := by simp [seqNibble, firstByte, h]

/-- The mark of a multi-frame payload (R243), where it is enabled. -/
theorem framePrefix_of_multi (h : isMulti f = true) :
    framePrefix p sess f =
      if sess.headers = p.mfPrefixWhenHeaders then
        (if f.data.b0 = 0x10 then hexN 1 0 ++ hexN 2 f.data.b1.toNat ++ [0x0D] else []) ++
          hexN 1 (f.data.b0.toNat % 16) ++ [0x3A, 0x20]
      else [] := by
  simp only [framePrefix, prefixEnabled, h, Bool.true_and, beq_iff_eq, isLiteralFirst_iff]
  split
  · by_cases hfirst : f.data.b0 = 0x10
    · simp only [seqNibble_of_literal hfirst, List.append_assoc, hfirst]
      rfl
    · simp only [if_neg hfirst]
      rfl
  · rfl

/-- The line of a multi-frame payload (R242): no length and no length digit, the bytes from 2 after a length line. -/
theorem formatFrame_of_multi (h : isMulti f = true) :
    formatFrame p sess wide f =
      framePrefix p sess f ++ (if sess.headers then idText sess wide f else []) ++
        hexBytes (spaceText sess)
          ((f.data.toList.take f.dlc.val).drop
            (if sess.headers = p.mfPrefixWhenHeaders ∧ f.data.b0 = 0x10 then 2 else 0)) ++ [0x0D] := by
  simp [formatFrame, frameHeader, frameDlcDigit, frameData, dataStart, dataEnd, prefixEnabled, isLiteralFirst, h]

end

theorem exec_formatFrameOutput (he : s.elmOk = true) (f : CanFrame) :
    exec (.formatFrameOutput f) s =
      .next { s with answers := s.answers ++ [.text (formatFrame s.inst s.sess s.draws.wideId f)] } :=
  onElm_ok he

/-- Settles O53: the line of a single frame, part by part. -/
theorem formatSingleFrame : Obligations.FormatSingleFrame := by
  unfold Obligations.FormatSingleFrame
  rintro s f sp header digit data he hsingle hsp rfl rfl rfl
  obtain rfl : sp = spaceText s.sess := hsp
  have hmulti : isMulti f = false := by
    rw [Bool.eq_false_iff, ne_eq, isMulti_iff]
    omega
  rw [exec_formatFrameOutput he, formatFrame_of_single _ _ _ hmulti, hexBytes_eq, idText_eq]
  rfl

/-- Settles O54: the line of a multi-frame payload, part by part. -/
theorem formatMultiFrame : Obligations.FormatMultiFrame := by
  unfold Obligations.FormatMultiFrame
  rintro s f sp mark header data first he hmulti hsp rfl rfl rfl rfl
  obtain rfl : sp = spaceText s.sess := hsp
  have hmulti' : isMulti f = true := (isMulti_iff f).2 hmulti
  rw [exec_formatFrameOutput he, formatFrame_of_multi _ _ _ hmulti', framePrefix_of_multi _ _ hmulti', hexBytes_eq,
    idText_eq]

/-! ### The estimator (R249) -/

/-- The average fits a word, so it is exact. -/
theorem toNat_nextAverage (avg sample : Word32) :
    (BitVec.ofNat 32 (nextAverage avg sample)).toNat = (avg.toNat * 7 + sample.toNat * 3) / 10 := by
  rw [BitVec.toNat_ofNat, Nat.mod_eq_of_lt (nextAverage_lt avg sample)]
  rfl

theorem clamp_le_max (v lo hi : Nat) : clamp v lo hi ≤ max lo hi := by
  unfold clamp
  split
  · omega
  · split <;> omega

theorem clamp_eq_max_min {lo hi : Nat} (h : lo ≤ hi) (v : Nat) : clamp v lo hi = max lo (min v hi) := by
  unfold clamp
  split
  · omega
  · split <;> omega

/-- The clamped timeout fits a word, whatever the bounds, so it is exact. -/
theorem toNat_nextTimeout (p : Params) (a : Nat) :
    (nextTimeout p a).toNat = clamp (a * 4) p.minTimeoutMs.toNat p.maxTimeoutMs.toNat := by
  have hle := clamp_le_max (a * 4) p.minTimeoutMs.toNat p.maxTimeoutMs.toNat
  have hmin := p.minTimeoutMs.isLt
  have hmax := p.maxTimeoutMs.isLt
  rw [nextTimeout, BitVec.toNat_ofNat, Nat.mod_eq_of_lt (by omega)]

/-- Settles O58: neither the average nor the clamped timeout wraps. -/
theorem updateTimeoutAverages : Obligations.UpdateTimeoutAverages := by
  unfold Obligations.UpdateTimeoutAverages
  rintro s sample a he hbounds rfl
  refine ⟨s.updateTimeout sample, onElm_ok he, rfl, toNat_nextAverage _ _, ?_⟩
  rw [← clamp_eq_max_min hbounds]
  exact toNat_nextTimeout _ _

/-! ### The poll and the close-out (R250, R251) -/

theorem graceOver_iff (p : Pending) (now : Word32) : graceOver p now = true ↔ 250 ≤ (now - p.tLast).toNat :=
  decide_eq_true_iff

theorem waitOver_iff (p : Pending) (timeout now : Word32) :
    waitOver p timeout now = true ↔ timeout.toNat < (now - p.tStart).toNat :=
  decide_eq_true_iff

theorem exec_closeOut (he : s.elmOk = true) : exec .closeOut s = .next s.closeOut := onElm_ok he

theorem exec_checkForTimeout_of_idle (he : s.elmOk = true) (h : s.sess.monitor = true ∨ s.pend.valid = false) :
    exec .checkForTimeout s = .next s := by
  refine (onElm_ok he).trans (if_pos ?_)
  obtain h | h := h <;> simp [h]

section
variable (he : s.elmOk = true) (hm : s.sess.monitor = false) (hv : s.pend.valid = true)
include he hm hv

theorem exec_checkForTimeout_of_noLock (hl : s.draws.lockOk = false) :
    exec .checkForTimeout s = .next (s.logEvent .lockTimeout) := by
  refine (onElm_ok he).trans ?_
  simp [hm, hv, hl, State.raiseError]

/-- After a response the poll only waits for the grace period to end. -/
theorem exec_checkForTimeout_of_answered (hl : s.draws.lockOk = true) (hr : s.pend.received ≠ 0) :
    exec .checkForTimeout s = .next (if graceOver s.pend s.clock then s.closeOut else s) := by
  refine (onElm_ok he).trans ?_
  rw [bne_iff_ne.2 hr]
  simp [hm, hv, hl]

theorem exec_checkForTimeout_of_unanswered (hl : s.draws.lockOk = true) (hr : s.pend.received = 0) :
    exec .checkForTimeout s =
      .next (if waitOver s.pend s.sess.timeoutMs s.clock then s.closeUnanswered else s) := by
  refine (onElm_ok he).trans ?_
  simp [hm, hv, hl, hr]

end

/-- Settles O59: the close-out by itself, then the branches of the poll. -/
theorem timeoutPollClosesTheExchange : Obligations.TimeoutPollClosesTheExchange := by
  unfold Obligations.TimeoutPollClosesTheExchange
  rintro s line a he rfl rfl
  refine ⟨exec_closeOut he, exec_checkForTimeout_of_idle he, fun hm hv => ⟨?_, fun hl hr => ?_, fun hl hr => ?_⟩⟩
  · exact exec_checkForTimeout_of_noLock he hm hv
  · rw [exec_checkForTimeout_of_answered he hm hv hl hr]
    simp only [graceOver_iff]
    rfl
  · rw [exec_checkForTimeout_of_unanswered he hm hv hl hr]
    simp only [waitOver_iff]
    exact ⟨fun hin => by rw [if_neg (Nat.not_lt.2 hin)], fun hout => by rw [if_pos hout]; rfl⟩

/-! ### What books a response (R248) -/

/-- What the response path reads of the emulator, the parameters and the clock, and the host stream it writes. -/
structure SameEmulator (s u : State) : Prop where
  inst : u.inst = s.inst
  clock : u.clock = s.clock
  sess : u.sess = s.sess
  estAvg : u.estAvg = s.estAvg
  pend : u.pend = s.pend
  hostOut : u.hostOut = s.hostOut

theorem SendEffect.sameEmulator (h : SendEffect s b f r u) : SameEmulator s u := by
  cases h <;> exact ⟨rfl, rfl, rfl, rfl, rfl, rfl⟩

theorem sameEmulator_of_sendResults (h : s.sendResults b f r u) : SameEmulator s u :=
  (sendStart_effect (sendStart_of_results h)).sameEmulator

theorem State.bookkeepIfDue_of_monitor (h : s.sess.monitor = true) : s.bookkeepIfDue = s := by
  simp [State.bookkeepIfDue, h]

theorem State.bookkeepIfDue_of_idle (h : s.pend.valid = false) : s.bookkeepIfDue = s := by
  simp [State.bookkeepIfDue, h]

theorem State.bookkeepIfDue_of_awaiting (hm : s.sess.monitor = false) (hv : s.pend.valid = true) :
    s.bookkeepIfDue = s.bookkeep := by
  simp [State.bookkeepIfDue, hm, hv]

theorem stamp_received_eq_one (p : Pending) (now : Word32) : (p.stamp now).received = 1 ↔ p.received = 0 :=
  add_eq_right

theorem targetReached_stamp_iff (p : Pending) (now : Word32) :
    targetReached (p.stamp now) = true ↔ p.expected ≠ 0 ∧ p.expected.toNat ≤ (p.received + 1).toNat := by
  simp [targetReached, Pending.stamp]

/-- The first response feeds the estimator when timing is adaptive, whether or not it reaches the target. -/
theorem State.bookkeep_of_first (h : s.pend.received = 0 ∧ s.sess.adaptive = true) :
    s.bookkeep.estAvg = BitVec.ofNat 32 (nextAverage s.estAvg (s.clock - s.pend.tStart)) ∧
      s.bookkeep.sess.timeoutMs = nextTimeout s.inst (nextAverage s.estAvg (s.clock - s.pend.tStart)) := by
  simp only [State.bookkeep, Bool.and_eq_true, beq_iff_eq, stamp_received_eq_one, if_pos h]
  split <;> exact ⟨rfl, rfl⟩

theorem State.bookkeep_of_not_first (h : ¬(s.pend.received = 0 ∧ s.sess.adaptive = true)) :
    s.bookkeep.estAvg = s.estAvg ∧ s.bookkeep.sess = s.sess := by
  simp only [State.bookkeep, Bool.and_eq_true, beq_iff_eq, stamp_received_eq_one, if_neg h]
  split <;> exact ⟨rfl, rfl⟩

/-- A reached target closes the exchange, whether or not the response fed the estimator. -/
theorem State.bookkeep_of_reached
    (h : s.pend.expected ≠ 0 ∧ s.pend.expected.toNat ≤ (s.pend.received + 1).toNat) :
    s.bookkeep.pend = Pending.none ∧ s.bookkeep.hostOut = s.hostOut ++ promptText s.inst s.sess.linefeed := by
  simp only [State.bookkeep, if_pos ((targetReached_stamp_iff s.pend s.clock).2 h)]
  split <;> exact ⟨rfl, rfl⟩

theorem State.bookkeep_of_not_reached
    (h : ¬(s.pend.expected ≠ 0 ∧ s.pend.expected.toNat ≤ (s.pend.received + 1).toNat)) :
    s.bookkeep.pend = s.pend.stamp s.clock ∧ s.bookkeep.hostOut = s.hostOut := by
  simp only [State.bookkeep, if_neg (mt (targetReached_stamp_iff s.pend s.clock).1 h)]
  split <;> exact ⟨rfl, rfl⟩

/-! ### `PROCESS_CAN_FRAME` (R241, R247) -/

theorem isFirstMarker_iff (f : CanFrame) : isFirstMarker f = true ↔ f.data.b0 &&& 0xF0 = 0x10 := beq_iff_eq

theorem exec_processCanFrame_of_monitor (he : s.elmOk = true) (hm : s.sess.monitor = true) (f : CanFrame) :
    exec (.processCanFrame f) s = .next (s.emit (formatFrame s.inst s.sess s.draws.wideId f)) := by
  rw [exec_processCanFrame, onElm_ok he, processFrame, hm, Bool.not_true, Bool.and_false]
  exact congrArg Host.Outcome.next (State.bookkeepIfDue_of_monitor (s := s.emit _) hm)

theorem exec_processCanFrame_of_first (he : s.elmOk = true) (hm : s.sess.monitor = false)
    (hf : isFirstMarker f = true) :
    exec (.processCanFrame f) s =
      sendThen s.inst.elmBus (flowFrame f.id s.sess.extended)
        (.frame .direct f (formatFrame s.inst s.sess s.draws.wideId f)) s := by
  simp [exec_processCanFrame, he, processFrame, hm, hf]

/-- Outside monitor mode `u`, what the flow control leaves where one is due and `s` where none is, gets the line and is
booked; either way the exchange in `u` is that of `s`. -/
theorem exec_processCanFrame_of_answered (he : s.elmOk = true) (hm : s.sess.monitor = false)
    (hu : if f.data.b0 &&& 0xF0 = 0x10 then
        s.transportOk = true ∧ ∃ r, s.sendResults s.inst.elmBus (flowFrame f.id s.sess.extended) r u
      else u = s) :
    SameEmulator s u ∧
      exec (.processCanFrame f) s =
        .next (u.emit (formatFrame s.inst s.sess s.draws.wideId f)).bookkeepIfDue := by
  simp only [← isFirstMarker_iff] at hu
  split at hu
  · next hf =>
    obtain ⟨ht, r, hsend⟩ := hu
    refine ⟨sameEmulator_of_sendResults hsend, ?_⟩
    rw [exec_processCanFrame_of_first he hm hf, sendThen_of_results ht hsend]
    rfl
  · next hf =>
    subst hu
    refine ⟨⟨rfl, rfl, rfl, rfl, rfl, rfl⟩, ?_⟩
    rw [exec_processCanFrame, onElm_ok he, processFrame, Bool.eq_false_iff.2 hf]
    rfl

/-- Settles O56: in monitor mode the line alone; outside it the line and the bookkeeping, or the hold. -/
theorem processFrameBooksTheResponse : Obligations.ProcessFrameBooksTheResponse := by
  unfold Obligations.ProcessFrameBooksTheResponse
  intro s f line he hline
  refine ⟨fun hm => ?_, fun hm u hu => ?_, fun hm hf ht hpasses hwaits => ?_⟩
  · rw [exec_processCanFrame_of_monitor he hm, hline]
    rfl
  · obtain ⟨⟨hinst, hclock, hsess, havg, hpend, hout⟩, hexec⟩ := exec_processCanFrame_of_answered he hm hu
    refine ⟨_, hexec, ?_⟩
    rw [← hline, ← hinst, ← hclock, ← hsess, ← havg, ← hpend, ← hout]
    rw [← hsess] at hm
    refine ⟨State.bookkeepIfDue_eq _, fun hidle => ?_, fun hv => ?_⟩
    · rw [State.bookkeepIfDue_of_idle (s := u.emit line) hidle]
      exact ⟨rfl, rfl, rfl, rfl⟩
    · rw [State.bookkeepIfDue_of_awaiting (s := u.emit line) hm hv]
      constructor
      · split
        · next hfirst =>
          obtain ⟨hestimate, htimeout⟩ := State.bookkeep_of_first (s := u.emit line) hfirst
          rw [hestimate, htimeout, toNat_nextAverage]
          exact ⟨rfl, toNat_nextTimeout _ _⟩
        · next hlater => exact State.bookkeep_of_not_first (s := u.emit line) hlater
      · split
        · next hreached => exact State.bookkeep_of_reached (s := u.emit line) hreached
        · next hshort => exact State.bookkeep_of_not_reached (s := u.emit line) hshort
  · rw [exec_processCanFrame_of_first he hm ((isFirstMarker_iff f).2 hf), sendThen_of_waits ht hpasses hwaits, hline]
    rfl

/-! ### What leaves the pending request as it is (R252) -/

/-- The rests of `SEND` that leave the pending request alone: one that arms a request does not, and one that books a
response does only in monitor mode. -/
def SendCont.keepsPend (monitor : Bool) : SendCont → Bool
  | .pid _ _ _ => false
  | .frame _ _ _ => monitor
  | .client | .bridge | .rxBridge _ _ | .flow => true

theorem frameDone_pend (c : FrameCaller) (f : CanFrame) (s : State) : (s.frameDone c f).pend = s.pend := by
  cases c <;> rfl

theorem finishSend_pend (h : k.keepsPend s.sess.monitor = true) (r : Int) : (finishSend k r s).pend = s.pend := by
  cases k with
  | client | bridge | rxBridge | flow => rfl
  | pid => cases h
  | frame c f line =>
    rw [finishSend, frameDone_pend, State.bookkeepIfDue_of_monitor (s := s.emit line) h]
    rfl

theorem holdSend_pend (b : BusIx) (f : CanFrame) (k : SendCont) (s : State) : (holdSend b f k s).pend = s.pend := by
  rcases k with _ | _ | _ | _ | _ | ⟨_ | _, _, _⟩ <;> rfl

theorem finishSend_pend_of_effect (he : SendEffect s b f r u) (hk : k.keepsPend s.sess.monitor = true) :
    (finishSend k r u).pend = s.pend :=
  (finishSend_pend (he.sameEmulator.sess ▸ hk) r).trans he.sameEmulator.pend

theorem sendThen_pend (h : sendThen b f k s = .next t) (hk : k.keepsPend s.sess.monitor = true) :
    t.pend = s.pend := by
  obtain ⟨_, ⟨r, u, he, rfl⟩ | ⟨_, rfl⟩⟩ := sendThen_next h
  · exact finishSend_pend_of_effect he hk
  · exact holdSend_pend b f k s

theorem bridgeFrame_pend {done : State → Bool → State} (h : bridgeFrame b f k done s = .next t)
    (hk : k.keepsPend s.sess.monitor = true) (hd : ∀ v fwd, (done v fwd).pend = v.pend) : t.pend = s.pend := by
  obtain ⟨_, ⟨_, rfl⟩ | ⟨_, _, rfl⟩ | ⟨_, _, _, hsend⟩⟩ := bridgeFrame_next h
  · exact hd _ _
  · exact hd _ _
  · exact sendThen_pend hsend hk

theorem receiveLook_pend {g : Option CanFrame} (h : receiveLook b s = some (g, r, t)) : t.pend = s.pend := by
  obtain ⟨_, _, _, e⟩ | ⟨_, _, e⟩ | ⟨_, _, e⟩ := receiveLook_cases b s <;> rw [e] at h <;> cases h
  · rfl
  · rfl

theorem ConfigEffect.pend (h : ConfigEffect s b t) : t.pend = s.pend := by
  cases h with
  | invalid | unchanged | written => rfl
  | persisted => exact State.persist_pend _

theorem onTransport_pend (h : onTransport s (.next u) = .next t) (hu : u.pend = s.pend) : t.pend = s.pend := by
  obtain ⟨_, hr⟩ := onTransport_next.1 h
  cases hr
  exact hu

theorem onElm_pend (h : onElm s (.next u) = .next t) (hu : u.pend = s.pend) : t.pend = s.pend := by
  obtain ⟨_, hr⟩ := onElm_next.1 h
  cases hr
  exact hu

theorem busGetter_pend {bad good : Answer} (h : busGetter s b bad good = .next t) : t.pend = s.pend := by
  obtain ⟨_, ⟨_, rfl⟩ | ⟨_, rfl⟩⟩ := busGetter_next.1 h
  · rfl
  · rfl

theorem execSetNumBusses_pend {n : Byte} (h : execSetNumBusses n s = .next t) : t.pend = s.pend := by
  obtain rfl | ⟨_, rfl⟩ := execSetNumBusses_next h
  · rfl
  · exact State.persist_pend _

theorem execReceive_pend (h : execReceive b s = .next t) : t.pend = s.pend := by
  obtain ⟨_, hr⟩ := onTransport_next.1 h
  split at hr
  · cases hr; rfl
  · split at hr <;> cases hr
    · next hl => exact (receiveLook_pend hl :)
    · rfl

theorem execSetBridge_pend {b₁ b₂ : BusIx} (h : execSetBridge b₁ b₂ s = .next t) : t.pend = s.pend := by
  obtain ⟨_, hr⟩ := onTransport_next.1 h
  split at hr <;> cases hr
  · rfl
  · rfl

theorem execRxEvent_pend (h : execRxEvent b f s = .next t) : t.pend = s.pend := by
  obtain ⟨_, hr⟩ := onTransport_next.1 h
  split at hr <;> cases hr
  · rfl
  · rfl

theorem execTxStep_pend (h : execTxStep s = .next t) : t.pend = s.pend := by
  obtain ⟨_, hr⟩ := onTransport_next.1 h
  split at hr <;> cases hr
  · unfold State.transmit
    dsimp only
    split <;> rfl
  · rfl

theorem execFsmStep_pend {x : EngineByte} (h : execFsmStep x s = .next t) : t.pend = s.pend := by
  obtain ⟨_, _, _, _, _, _, _, _, rfl⟩ := execFsmStep_next h
  rfl

theorem atReply_pend {sess' : ElmSession} {info : Bytes} (h : atReply sess' info s = .next t) : t.pend = s.pend := by
  obtain ⟨_, rfl⟩ := atReply_next.1 h
  rfl

/-- An instruction that neither starts nor serves an exchange leaves the pending request as it is, by its family. -/
theorem exec_pend {i : Instr} (h : exec i s = .next t) (hstart : startsExchange i = false)
    (hserve : servesExchange i = false) (hreset : i ≠ .reset) : t.pend = s.pend := by
  cases i with
  | enable => exact (ConfigEffect.of_enable h).pend
  | disable => exact (ConfigEffect.of_disable h).pend
  | setBitrate => exact (ConfigEffect.of_setBitrate h).pend
  | setListenOnly => exact (ConfigEffect.of_setListenOnly h).pend
  | isEnabled | getBitrate | isListenOnly | getRxBufferedFrames | getTxBufferedFrames | getRxOverflowCount
  | getTxOverflowCount | getStatistics => exact busGetter_pend h
  | getNumBusses => exact onTransport_pend h rfl
  | setNumBusses => exact execSetNumBusses_pend h
  | send => exact sendThen_pend h rfl
  | receive => exact execReceive_pend h
  | setBridge => exact execSetBridge_pend h
  | handleBridge =>
    rw [exec_handleBridge] at h
    exact bridgeFrame_pend h rfl fun _ _ => rfl
  | rxEvent => exact execRxEvent_pend h
  | txStep => exact execTxStep_pend h
  | persist => exact onTransport_pend h (State.persist_pend s)
  | loadSettings => exact onTransport_pend h (State.loadSettings_pend s)
  | fsmStep => exact execFsmStep_pend h
  | atdesc | atsp | atat | atst | atdp | atpc | atrv | at1 | atsh | atma | ate | atm | atl | ats | ath | atd
  | atz | ati => exact atReply_pend h
  | unknownAt | malformedAt | invalidLine | formatFrameOutput | updateTimeout => exact onElm_pend h rfl
  | sendFlowControl => exact sendThen_pend (onElm_next.1 h).2 rfl
  | repeatLine | pid4 | pid5 | pid6 | pid7 | hostByte | dispatchLine => cases hstart
  | rxTaskStep | handleCanFrame | processCanFrame | checkForTimeout | closeOut => cases hserve
  | reset => exact absurd rfl hreset

/-! ### What starts an exchange (R194, R252) -/

/-- The pending request is left as it is, or goes from `IDLE` to `AWAITING`. -/
def MayArm (p q : Pending) : Prop := q = p ∨ (p.valid = false ∧ q.valid = true)

/-- A PID request is armed when its `SEND` ends, and left for later when it holds. -/
theorem pidRequest_mayArm {data : Payload} {mode : Byte} {pid : BitVec 16} {expected : Byte}
    (h : pidRequest data mode pid expected s = .next t) : MayArm s.pend t.pend := by
  obtain ⟨_, hfree, _, hsend⟩ := pidRequest_next h
  obtain ⟨_, ⟨r, u, _, rfl⟩ | ⟨_, rfl⟩⟩ := sendThen_next hsend
  · exact .inr ⟨hfree, rfl⟩
  · exact .inl rfl

theorem execCommand_mayArm {c : LineCmd} (h : execCommand c s = .next t) : MayArm s.pend t.pend := by
  cases c with
  | pid4 | pid5 | pid6 | pid7 => exact pidRequest_mayArm h
  | unknownAt | malformedAt | invalidLine => exact .inl (onElm_pend h rfl)
  | _ => exact .inl (atReply_pend h)

theorem execRepeatLine_mayArm (h : execRepeatLine s = .next t) : MayArm s.pend t.pend := by
  obtain ⟨_, hr⟩ := onElm_next.1 h
  split at hr
  · cases hr; exact .inl rfl
  · exact execCommand_mayArm hr

theorem execDispatchLine_mayArm {line : Bytes} (h : execDispatchLine line s = .next t) : MayArm s.pend t.pend := by
  obtain rfl | ⟨_, hc⟩ | ⟨_, hc⟩ := execDispatchLine_next h
  · exact .inl rfl
  · exact execCommand_mayArm hc
  · exact execCommand_mayArm (s := { s with lastCmd := line }) hc

@[simp] theorem State.echoed_pend (s : State) : s.echoed.pend = s.pend := by rw [State.echoed_eq]

theorem execHostByte_mayArm {c : Byte} (h : execHostByte c s = .next t) : MayArm s.pend t.pend := by
  obtain ⟨_, rfl⟩ | rfl | ⟨last, _, _, hc⟩ := execHostByte_next h
  · exact .inl s.echoed_pend
  · exact .inl s.echoed_pend
  · rw [← s.echoed_pend]
    exact execCommand_mayArm (s := { s.echoed with lineBuf := [], lastCmd := last }) hc

theorem exec_mayArm {i : Instr} (hstart : startsExchange i = true) (h : exec i s = .next t) :
    MayArm s.pend t.pend := by
  cases i with
  | pid4 | pid5 | pid6 | pid7 => exact pidRequest_mayArm h
  | repeatLine => exact execRepeatLine_mayArm h
  | dispatchLine => exact execDispatchLine_mayArm h
  | hostByte => exact execHostByte_mayArm h
  | _ => cases hstart

/-- What serves responses arms nothing. -/
theorem exec_awaiting_of_serves {i : Instr} (hserve : servesExchange i = true) (h : exec i s = .next t)
    (ht : t.awaiting = true) : s.awaiting = true := by
  cases i with
  | rxTaskStep => exact (Benign.rxStep h).pend.down ht
  | handleCanFrame => exact (Benign.handle h).pend.down ht
  | processCanFrame => exact (Benign.process (onElm_next.1 h).2).pend.down ht
  | checkForTimeout => exact (Benign.poll h).pend.down ht
  | closeOut =>
    obtain ⟨_, hr⟩ := onElm_next.1 h
    cases hr
    cases ht
  | _ => cases hserve

/-- Settles O20, one clause for each kind of instruction. -/
theorem exchangeTransitions : Obligations.ExchangeTransitions := by
  unfold Obligations.ExchangeTransitions
  intro i s t h hreset
  exact ⟨fun hstart hserve => exec_pend h hstart hserve hreset, fun hstart => exec_mayArm hstart h,
    fun hserve => exec_awaiting_of_serves hserve h⟩

/-! ### Monitor mode (R252, R319) -/

theorem processFrame_pend_of_monitor {c : FrameCaller} (hm : s.sess.monitor = true)
    (h : processFrame c f s = .next t) : t.pend = s.pend := by
  obtain ⟨_, _, hsend⟩ | ⟨_, rfl⟩ := processFrame_next h
  · exact sendThen_pend hsend hm
  · rw [frameDone_pend, State.bookkeepIfDue_of_monitor (s := s.shown f) hm]
    rfl

theorem handleFrame_pend_of_monitor {c : FrameCaller} (hm : s.sess.monitor = true)
    (h : handleFrame c f s = .next t) : t.pend = s.pend := by
  obtain ⟨_, ⟨_, _, rfl⟩ | ⟨_, rfl⟩ | ⟨_, _, hp⟩⟩ := handleFrame_next h
  · exact frameDone_pend c f s
  · exact frameDone_pend c f _
  · exact processFrame_pend_of_monitor hm hp

theorem rxTaskReceive_pend (h : rxTaskReceive b s = .next t) : t.pend = s.pend := by
  unfold rxTaskReceive at h
  split at h <;> cases h
  · next hl => exact (receiveLook_pend hl :)
  · next hl => exact (receiveLook_pend hl :)
  · rfl

/-- The receive task, by the phase it is in (R163). -/
theorem execRxTaskStep_pend_of_monitor (hm : s.sess.monitor = true) (h : execRxTaskStep b s = .next t) :
    t.pend = s.pend := by
  obtain ⟨_, hr⟩ := onTransport_next.1 h
  generalize (s.bus b).rxTask = phase at hr
  cases phase with
  | idle =>
    dsimp only at hr
    split at hr
    · exact rxTaskReceive_pend hr
    · cases hr; rfl
  | receiving => exact rxTaskReceive_pend hr
  | bridging => exact bridgeFrame_pend hr rfl fun _ _ => rfl
  | forwarding other g =>
    dsimp only at hr
    split at hr <;> cases hr
    · next hl => exact finishSend_pend_of_effect (k := .rxBridge b g) (sendLook_effect hl) rfl
    · rfl
  | emulating => exact handleFrame_pend_of_monitor hm hr
  | answering =>
    dsimp only at hr
    split at hr <;> cases hr
    · next hl => exact finishSend_pend_of_effect (sendLook_effect hl) hm
    · rfl

/-- A held operation of an agent other than `ELMTASK` that looks again: it arms nothing. -/
theorem resumeHeld_pend_of_monitor {n : Nat} (hm : s.sess.monitor = true) (hh : s.elmHolding = false)
    (h : resumeHeld n s = .next t) : t.pend = s.pend := by
  obtain ⟨_, rfl | ⟨bus, g, c, r, u, hheld, he, rfl⟩ | ⟨_, _, _, u, _, hl, rfl⟩⟩ := resumeHeld_next h
  · rfl
  · have hnot : (Held.send bus g c).isElm = false := by
      simp only [State.elmHolding, List.any_eq_false] at hh
      exact Bool.eq_false_iff.2 (hh _ (List.mem_of_getElem? hheld))
    have hkeeps : c.keepsPend u.sess.monitor = true := by
      rw [he.sameEmulator.sess, hm]
      cases c with
      | pid => cases hnot
      | _ => rfl
    exact (finishSend_pend (s := { u with held := u.held.eraseIdx n }) hkeeps r).trans he.sameEmulator.pend
  · exact (receiveLook_pend hl :)

theorem execCheckForTimeout_pend_of_monitor (hm : s.sess.monitor = true) (h : execCheckForTimeout s = .next t) :
    t.pend = s.pend := by
  have hidle := exec_checkForTimeout_of_idle (onElm_next.1 h).1 (.inl hm)
  cases hidle.symm.trans h
  rfl

theorem exchange_free_of_api {i : Instr} (h : apiInstr i = true) :
    startsExchange i = false ∧ servesExchange i = false ∧ i ≠ .reset := by
  cases i with
  | enable | disable | setBitrate | setListenOnly | isEnabled | getBitrate | isListenOnly | send | receive
  | getRxBufferedFrames | getTxBufferedFrames | getRxOverflowCount | getTxOverflowCount | getNumBusses
  | setNumBusses | getStatistics | setBridge | handleBridge => exact ⟨rfl, rfl, nofun⟩
  | _ => cases h

/-- What a stimulus starts in monitor mode, with a request outstanding, leaves the request as it is. -/
theorem Starts.pend_of_monitor {i : Instr} (hi : Starts s i) (hm : s.sess.monitor = true)
    (hv : s.awaiting = true) (h : exec i s = .next t) : t.pend = s.pend := by
  cases hi with
  | api ha =>
    obtain ⟨hstart, hserve, hreset⟩ := exchange_free_of_api ha
    exact exec_pend h hstart hserve hreset
  | wire | arbiter | fsm => exact exec_pend h rfl rfl nofun
  | host =>
    obtain hkept | ⟨hidle, _⟩ := execHostByte_mayArm h
    · exact hkept
    · cases hidle.symm.trans hv
  | poll => exact execCheckForTimeout_pend_of_monitor hm h
  | rxTask => exact execRxTaskStep_pend_of_monitor hm h

/-- Settles O21: a step that is no reset starts an operation or lets a held one look again. -/
theorem monitorModeFreezesTheExchange : Obligations.MonitorModeFreezesTheExchange := by
  unfold Obligations.MonitorModeFreezesTheExchange
  intro s t h hreset hm hh hv
  have hbegin : s.beginStep.pend = s.pend := rfl
  rw [← hbegin]
  obtain ⟨ha, _⟩ | ⟨_, hs, hi⟩ | ⟨_, hk⟩ := step_cases h
  · exact absurd ha hreset
  · exact hs.pend_of_monitor hm hv hi
  · exact resumeHeld_pend_of_monitor hm hh hk

end Sys2Proof.Machine
end

section
/-! PROOFS of the family 70_reset_and_hazards: what `RESET` leaves (R310, R38, R312). -/

namespace Sys2Proof.Machine

variable {s : State}

/-! ### The starts of step 3 -/

theorem getElem?_startEnabled (n k : Nat) (xs : List Bus) :
    (startEnabled n xs)[k]? =
      xs[k]?.map fun x => if k < n ∧ x.cfg.enabled = true then x.ctrlStart x.cfg.bitrate else x := by
  induction n generalizing k xs with
  | zero => simp [startEnabled]
  | succ n ih =>
    cases xs with
    | nil => rfl
    | cons x xs =>
      cases k with
      | zero => simp [startEnabled]
      | succ k => simpa [startEnabled] using ih k xs

theorem map_cfg_startEnabled (n : Nat) (xs : List Bus) : (startEnabled n xs).map Bus.cfg = xs.map Bus.cfg := by
  induction n generalizing xs with
  | zero => rfl
  | succ n ih =>
    cases xs with
    | nil => rfl
    | cons x xs => simp [startEnabled, ih, apply_ite Bus.cfg, Bus.ctrlStart]

theorem State.length_startBuses_buses (s : State) : s.startBuses.buses.length = s.buses.length := by
  unfold State.startBuses
  split
  · exact length_startEnabled _ _
  · rfl

theorem State.cfgs_startBuses (s : State) : s.startBuses.cfgs = s.cfgs := by
  unfold State.startBuses
  split
  · exact map_cfg_startEnabled _ _
  · rfl

/-- The start of one bus: it needs the Transport, a valid index and the enabled flag. -/
theorem State.bus_startBuses (s : State) (b : BusIx) :
    s.startBuses.bus b =
      if s.transportOk = true ∧ b.toNat < s.numBusses.toNat ∧ (s.bus b).cfg.enabled = true then
        (s.bus b).ctrlStart (s.bus b).cfg.bitrate
      else s.bus b := by
  by_cases hup : s.transportOk = true
  · have hstart : s.startBuses = { s with buses := startEnabled s.numBusses.toNat s.buses } := if_pos hup
    rw [hstart]
    by_cases hb : b.toNat < s.buses.length
    · simp [State.bus, hup, hb, getElem?_startEnabled]
    · simp [State.bus, hb, getElem?_startEnabled, Bus.fresh, defaultCfg]
  · have hkeep : s.startBuses = s := if_neg hup
    rw [hkeep, if_neg fun h => hup h.1]

/-! ### What step 3 loads -/

theorem State.nvmOk_eq_false_iff (s : State) :
    s.nvmOk = false ↔ s.nvm.valid = false ∨ s.inst.maxBusses ≤ s.nvm.busCount.toNat := by
  rw [Bool.eq_false_iff, Ne, s.nvmOk_iff, not_and_or, Nat.not_lt, Bool.not_eq_true]

theorem State.loadSettings_log (s : State) :
    s.loadSettings.log =
      s.log ++ if s.nvm.valid = true ∧ s.nvm.busCount.toNat < s.inst.maxBusses then [] else [.persistFail] := by
  obtain ⟨hok, e⟩ | ⟨hbad, e⟩ := s.loadSettings_cases
  · rw [e, if_pos (s.nvmOk_iff.1 hok), List.append_nil]
  · rw [e, if_neg fun h => by simp [s.nvmOk_iff.2 h] at hbad]
    rfl

/-- Whatever record is loaded over the cleared buses, only their configurations are not as after step 2. -/
theorem State.bus_loadSettings_clearVolatile (s : State) (b : BusIx) :
    ∃ c, s.clearVolatile.loadSettings.bus b = Bus.fresh c := by
  have hcleared : ∀ x ∈ s.clearVolatile.buses, x = Bus.fresh (defaultCfg s.inst) := fun x => List.eq_of_mem_replicate
  by_cases hb : b.toNat < s.clearVolatile.loadSettings.buses.length
  · have hmem := State.bus_mem _ b hb
    obtain ⟨_, e⟩ | ⟨_, e⟩ := s.clearVolatile.loadSettings_cases <;> rw [e] at hmem ⊢
    · obtain ⟨x, hx, c, hc⟩ := mem_setCfgs hmem
      exact ⟨c, by rw [hc, hcleared x hx]; rfl⟩
    · obtain ⟨x, hx, hc⟩ := List.mem_map.1 hmem
      exact ⟨_, by rw [← hc, hcleared x hx]; rfl⟩
  · exact ⟨_, State.bus_out_of_range _ b (Nat.le_of_not_lt hb)⟩

/-! ### The whole sequence (R310) -/

theorem exec_reset (s : State) : exec .reset s = .next s.resetSequence := rfl

theorem State.resetSequence_log (s : State) :
    s.resetSequence.log =
      startupLog s.draws ++
        if s.nvm.valid = true ∧ s.nvm.busCount.toNat < s.inst.maxBusses then [] else [.persistFail] :=
  (State.startBuses_log _).trans (State.loadSettings_log _)

theorem State.length_resetSequence_buses (s : State) : s.resetSequence.buses.length = s.inst.maxBusses := by
  simp [State.resetSequence, State.length_startBuses_buses, State.length_loadSettings_buses]

theorem State.resetSequence_numBusses (s : State) :
    s.resetSequence.numBusses = s.clearVolatile.loadSettings.numBusses :=
  State.startBuses_numBusses _

/-- The starts read the loaded configurations and write none. -/
theorem State.cfgs_resetSequence (s : State) : s.resetSequence.cfgs = s.clearVolatile.loadSettings.cfgs :=
  State.cfgs_startBuses _

theorem State.resetSequence_of_valid (h : s.nvmOk = true) :
    s.resetSequence.numBusses = s.nvm.busCount ∧
      (s.nvm.busConfig.length = s.inst.maxBusses → s.resetSequence.cfgs = s.nvm.busConfig) := by
  have hok : s.clearVolatile.nvmOk = true := h
  refine ⟨?_, fun hlen => ?_⟩
  · rw [s.resetSequence_numBusses, State.loadSettings_of_valid hok]
    rfl
  · rw [s.cfgs_resetSequence, State.cfgs_loadSettings_of_valid hok (by simpa using hlen)]
    rfl

theorem State.resetSequence_of_invalid (h : s.nvmOk = false) :
    s.resetSequence.numBusses = s.inst.defaultNumBusses ∧ ∀ c ∈ s.resetSequence.cfgs, c = defaultCfg s.inst := by
  have hbad : s.clearVolatile.nvmOk = false := h
  rw [s.resetSequence_numBusses, s.cfgs_resetSequence, State.loadSettings_of_invalid hbad]
  exact ⟨rfl, by simp [State.cfgs]⟩

/-- After a reset a bus is as after step 2 with some configuration, and started where that enables it below the
count. -/
theorem State.bus_resetSequence (s : State) (b : BusIx) :
    ∃ c, s.resetSequence.bus b =
      if s.draws.transportOk = true ∧ b.toNat < s.resetSequence.numBusses.toNat ∧ c.enabled = true then
        (Bus.fresh c).ctrlStart c.bitrate
      else Bus.fresh c := by
  obtain ⟨c, hc⟩ := s.bus_loadSettings_clearVolatile b
  have hbus : s.resetSequence.bus b = s.clearVolatile.loadSettings.startBuses.bus b := rfl
  rw [hbus, State.bus_startBuses, hc, s.resetSequence_numBusses, State.loadSettings_transportOk]
  exact ⟨c, rfl⟩

/-- Settles O60: each clause is what one stage of the start-up sequence leaves and the later ones keep. -/
theorem resetLeavesTheTable : Obligations.ResetLeavesTheTable := by
  unfold Obligations.ResetLeavesTheTable
  intro s
  obtain ⟨hinst, hclock, hdraws, hscript, hturn⟩ := SameEnv.resetSequence s
  refine ⟨_, exec_reset s, ?nvm, ?transportOk, ?elmOk, ?bridge, ?sess, ?estAvg, rfl, rfl, rfl, ?arbPtr, ?engines,
    ?hostOut, ?answers, ?adapterOut, ?held, s.resetSequence_log, hinst, hclock, hdraws, hscript, hturn,
    s.length_resetSequence_buses, fun hvalid hcount => State.resetSequence_of_valid (s.nvmOk_iff.2 ⟨hvalid, hcount⟩),
    fun hbad => State.resetSequence_of_invalid (s.nvmOk_eq_false_iff.2 hbad), fun b _ => ?bus⟩
  case bus =>
    obtain ⟨c, hc⟩ := s.bus_resetSequence b
    have hcfg : (s.resetSequence.bus b).cfg = c := by
      rw [hc]
      split <;> rfl
    rw [hcfg]
    exact hc
  case engines => simp [State.resetSequence, FsmParams.fresh]
  case nvm | transportOk | elmOk | bridge | sess | estAvg | arbPtr | hostOut | answers | adapterOut | held =>
    simp [State.resetSequence]

end Sys2Proof.Machine
end
